-- ==== Sys2Proof/Word.lean ====
section
/-! DEFINITION. The word types of the block: the widths of 00_scope.md R8, each an unsigned bit vector (R12). -/

namespace Sys2Proof

/-- A byte: a GPIO port, the decimal-point mask, a segment pattern. -/
abbrev Byte := BitVec 8

/-- The 16-bit VALUE: four packed nibbles (R19). -/
abbrev Half := BitVec 16

/-- A 32-bit word: REFRESH_TICKS, a rate, a count, one half of a timer register. -/
abbrev Word := BitVec 32

/-- A 64-bit quantity: MTIME, MTIMECMP, a deadline. -/
abbrev DWord := BitVec 64

/-- One 64-bit command word CMD (R60). -/
abbrev Cmd := BitVec 64

end Sys2Proof
end

