-- ==== Sys2Proof/Syntax.lean ====
section
/-! DEFINITION. The six operations of spec/opcode_table.json, the issuers, the reasons of a refusal, the lines of
the assembler, and what the host hands in (30_encoding.md). -/

namespace Sys2Proof

/-- The six operations of R62, with the operands of R61 at the widths of their fields. -/
inductive Instr where
  /-- RESET value, rate, dp (R76). -/
  | reset (value : Half) (rate : Word) (dp : Byte)
  /-- SETVAL value, dp (R78). -/
  | setval (value : Half) (dp : Byte)
  /-- START (R80). -/
  | start
  /-- STOP (R82). -/
  | stop
  /-- TICK, the block's own: RefreshStep (R87). -/
  | tick
  /-- ARM count, the block's own: TimerScheduler (R98). -/
  | arm (count : Word)
  deriving DecidableEq, Repr

/-- Who issues a word (R64). -/
inductive Issuer where
  | host
  | block
  deriving DecidableEq, Repr

/-- The reasons of a refusal (R70). -/
inductive RefuseReason where
  /-- `RESERVED_OP`: an opcode no row defines (R65). -/
  | reservedOp
  /-- `RESERVED_BITS`: a nonzero bit in a field the opcode reserves (R65). -/
  | reservedBits
  /-- `INTERNAL_OP`: TICK or ARM issued by the host (R66). -/
  | internalOp
  /-- `OPERAND_RANGE`: an assembler operand that does not fit its field (R68). -/
  | operandRange
  /-- `BAD_CONFIG`: an illegal configuration (R45). -/
  | badConfig
  deriving DecidableEq, Repr

/-- One line of assembler text, its operands as the numbers written (R68), pseudo-operations included (R69). -/
inductive AsmLine where
  /-- `RESET value, rate, dp`, or `RESET value, rate` with dp left out. -/
  | reset (value rate : Nat) (dp : Option Nat)
  /-- `CONSTRUCT value, rate`. -/
  | construct (value rate : Nat)
  | setval (value dp : Nat)
  | start
  | stop
  | tick
  | arm (count : Nat)
  deriving DecidableEq, Repr

/-- What the host hands in as one command (R68, R128.1): a command word, or a line of assembler text to be assembled
into one (log 25). -/
inductive HostInput where
  | word (w : Cmd)
  | line (l : AsmLine)
  deriving DecidableEq, Repr, Inhabited

end Sys2Proof
end

