-- ==== Sys2Proof/WellFormed.lean ====
section
/-! DEFINITION. Which instruction an issuer may issue (30_encoding.md R66), and which assembler line has its operands in
the range of their fields (R68). -/

namespace Sys2Proof

/-- "TICK and ARM are the block's own operations" (R66). -/
def Instr.blockOnly : Instr → Bool
  | .reset _ _ _ => false
  | .setval _ _ => false
  | .start => false
  | .stop => false
  | .tick => true
  | .arm _ => true

/-- The issuer may issue the instruction: the host issues none of the block's own (R66). The operands need no check:
each has the width of its field (R61). -/
def Instr.wellFormed (issuer : Issuer) (i : Instr) : Bool :=
  !(issuer == .host && i.blockOnly)

/-- Every operand of the line fits its field (R60, R68). -/
def AsmLine.inRange : AsmLine → Bool
  | .reset value rate dp => value < 2 ^ 16 && rate < 2 ^ 32 && dp.getD 0 < 2 ^ 8
  | .construct value rate => value < 2 ^ 16 && rate < 2 ^ 32
  | .setval value dp => value < 2 ^ 16 && dp < 2 ^ 8
  | .start => true
  | .stop => true
  | .tick => true
  | .arm count => count < 2 ^ 32

end Sys2Proof
end

