-- ==== Sys2Proof/Decode.lean ====
section
/-! DEFINITION. The decoder of 30_encoding.md R64, total on every 64-bit word, after it the encoder written from the
same fields (R60), and the assembler (R68, R69). -/

namespace Sys2Proof

/-- `op = CMD[3:0]` (R60). -/
def opField (w : Cmd) : BitVec 4 := w.extractLsb' 0 4

/-- `dp = CMD[11:4]` (R61). -/
def dpField (w : Cmd) : Byte := w.extractLsb' 4 8

/-- `value = CMD[27:12]` (R61). -/
def valueField (w : Cmd) : Half := w.extractLsb' 12 16

/-- `rate = CMD[59:28]` (R61). -/
def rateField (w : Cmd) : Word := w.extractLsb' 28 32

/-- The rows of the opcode map (R62, R63). -/
inductive Row where
  | reset
  | setval
  | start
  | stop
  | tick
  | arm
  deriving DecidableEq, Repr

/-- The row an opcode selects, none where R62 says reserved. -/
def Row.ofOp (op : BitVec 4) : Option Row :=
  match op.toNat with
  | 0x1 => some .reset
  | 0x2 => some .setval
  | 0x3 => some .start
  | 0x4 => some .stop
  | 0x8 => some .tick
  | 0x9 => some .arm
  | _ => none

/-- The column `match` of R63. -/
def Row.matchBits : Row → Cmd
  | .reset => 0x0000000000000001#64
  | .setval => 0x0000000000000002#64
  | .start => 0x0000000000000003#64
  | .stop => 0x0000000000000004#64
  | .tick => 0x0000000000000008#64
  | .arm => 0x0000000000000009#64

/-- The column `mask` of R63. -/
def Row.mask : Row → Cmd
  | .reset => 0xF00000000000000F#64
  | .setval => 0xFFFFFFFFF000000F#64
  | .start => 0xFFFFFFFFFFFFFFFF#64
  | .stop => 0xFFFFFFFFFFFFFFFF#64
  | .tick => 0xFFFFFFFFFFFFFFFF#64
  | .arm => 0xF00000000FFFFFFF#64

/-- The operation of a row with the operands of a word (R61, R64). -/
def Row.instr (r : Row) (w : Cmd) : Instr :=
  match r with
  | .reset => .reset (valueField w) (rateField w) (dpField w)
  | .setval => .setval (valueField w) (dpField w)
  | .start => .start
  | .stop => .stop
  | .tick => .tick
  | .arm => .arm (rateField w)

/-- The decoder of R64; the checks in the order it gives them. -/
def decode (issuer : Issuer) (w : Cmd) : Except RefuseReason Instr :=
  match Row.ofOp (opField w) with
  | none => .error .reservedOp
  | some r =>
    if w &&& r.mask ≠ r.matchBits then .error .reservedBits
    else if (r.instr w).wellFormed issuer then .ok (r.instr w)
    else .error .internalOp

/-- A word from its fields at their places: rate at bit 28, value at 12, dp at 4, op at 0, and rsv 0 (R60). -/
def cmdOf (rate : Word) (value : Half) (dp : Byte) (op : BitVec 4) : Cmd :=
  rate.setWidth 64 <<< 28 ||| value.setWidth 64 <<< 12 ||| dp.setWidth 64 <<< 4 ||| op.setWidth 64

/-- The command word of an instruction (R60, R62): a field the opcode reserves is 0. -/
def encode : Instr → Cmd
  | .reset value rate dp => cmdOf rate value dp 0x1
  | .setval value dp => cmdOf 0 value dp 0x2
  | .start => cmdOf 0 0 0 0x3
  | .stop => cmdOf 0 0 0 0x4
  | .tick => cmdOf 0 0 0 0x8
  | .arm count => cmdOf count 0 0 0x9

/-- The row of an instruction (R62). -/
def Instr.row : Instr → Row
  | .reset _ _ _ => .reset
  | .setval _ _ => .setval
  | .start => .start
  | .stop => .stop
  | .tick => .tick
  | .arm _ => .arm

/-- The host's reading of the opcode table: the low `nbits` bits of `w` as one command word, every bit above them 0,
as the block would issue it (the block may issue every row, log 22). -/
def decodeTableWord (nbits w : Nat) : Option Instr :=
  match decode .block (BitVec.ofNat 64 (w % 2 ^ nbits)) with
  | .ok i => some i
  | .error _ => none

/-! ## The assembler (R68, R69, log 19) -/

/-- The instruction a line stands for, its operands cut to their fields: the expansions of R69. -/
def AsmLine.instr : AsmLine → Instr
  | .reset value rate dp => .reset (.ofNat 16 value) (.ofNat 32 rate) (.ofNat 8 (dp.getD 0))
  | .construct value rate => .reset (.ofNat 16 value) (.ofNat 32 rate) 0
  | .setval value dp => .setval (.ofNat 16 value) (.ofNat 8 dp)
  | .start => .start
  | .stop => .stop
  | .tick => .tick
  | .arm count => .arm (.ofNat 32 count)

/-- The word of a line: "An operand that does not fit its field is refused with reason `OPERAND_RANGE`" (R68). -/
def assemble (l : AsmLine) : Except RefuseReason Cmd :=
  if l.inRange then .ok (encode l.instr) else .error .operandRange

/-- The command word of what the host hands in: the word itself, or the line's, whose refusal is the assembler's. -/
def HostInput.command : HostInput → Except RefuseReason Cmd
  | .word w => .ok w
  | .line l => assemble l

/-- The host's instruction of what it hands in, with the refusal of the assembler (R68) or of the decoder (R64). -/
def HostInput.instr (x : HostInput) : Except RefuseReason Instr :=
  match x.command with
  | .ok w => decode .host w
  | .error reason => .error reason

/-- The value of a digit character in a base up to 16. -/
def digitValue (base : Nat) (c : Char) : Option Nat :=
  let v :=
    if '0' ≤ c ∧ c ≤ '9' then c.toNat - '0'.toNat
    else if 'a' ≤ c ∧ c ≤ 'f' then c.toNat - 'a'.toNat + 10
    else if 'A' ≤ c ∧ c ≤ 'F' then c.toNat - 'A'.toNat + 10
    else base
  if v < base then some v else none

/-- The value of the digits of a base, most significant first, after the value read so far. -/
def digitsFrom (base : Nat) : Nat → List Char → Option Nat
  | acc, [] => some acc
  | acc, c :: rest =>
    match digitValue base c with
    | some v => digitsFrom base (acc * base + v) rest
    | none => none

/-- The value of a nonempty string of digits of a base. -/
def digits (base : Nat) : List Char → Option Nat
  | [] => none
  | c :: rest => digitsFrom base 0 (c :: rest)

/-- "unsigned integer literals in decimal, `0x` hex or `0b` binary" (R68). -/
def literal : List Char → Option Nat
  | '0' :: 'x' :: rest => digits 16 rest
  | '0' :: 'b' :: rest => digits 2 rest
  | cs => digits 10 cs

/-- What stands before a `;`, which starts a comment (R68). -/
def uncomment : List Char → List Char
  | [] => []
  | ';' :: _ => []
  | c :: rest => c :: uncomment rest

/-- A line cut at blanks, each of `,` `(` `)` a token of its own; `word` holds the letters read so far, last first. -/
def tokens : List Char → List Char → List (List Char)
  | word, [] => if word = [] then [] else [word.reverse]
  | word, c :: rest =>
    let ended := if word = [] then [] else [word.reverse]
    if c = ' ' ∨ c = '\t' then ended ++ tokens [] rest
    else if c = ',' ∨ c = '(' ∨ c = ')' then ended ++ [c] :: tokens [] rest
    else tokens (c :: word) rest

/-- The values of literals with a comma between each two; no literal at all is the empty list. -/
def operands : List (List Char) → Option (List Nat)
  | [] => some []
  | [t] => (literal t).map (fun n => [n])
  | t :: [','] :: t' :: rest =>
    match literal t, operands (t' :: rest) with
    | some n, some ns => some (n :: ns)
    | _, _ => none
  | _ => none

/-- The tokens between an opening parenthesis and the closing one that ends the line. -/
def parenthesized : List (List Char) → Option (List (List Char))
  | ['('] :: rest => if rest.getLast? = some [')'] then some rest.dropLast else none
  | _ => none

/-- A line by its mnemonic and operands (R68, R69). -/
def lineOfMnemonic (name : List Char) (args : List Nat) : Option AsmLine :=
  if name = ['R', 'E', 'S', 'E', 'T'] then
    match args with
    | [value, rate] => some (.reset value rate none)
    | [value, rate, dp] => some (.reset value rate (some dp))
    | _ => none
  else if name = ['C', 'O', 'N', 'S', 'T', 'R', 'U', 'C', 'T'] then
    match args with
    | [value, rate] => some (.construct value rate)
    | _ => none
  else if name = ['S', 'E', 'T', 'V', 'A', 'L'] then
    match args with
    | [value, dp] => some (.setval value dp)
    | _ => none
  else if name = ['S', 'T', 'A', 'R', 'T'] then
    match args with
    | [] => some .start
    | _ => none
  else if name = ['S', 'T', 'O', 'P'] then
    match args with
    | [] => some .stop
    | _ => none
  else if name = ['T', 'I', 'C', 'K'] then
    match args with
    | [] => some .tick
    | _ => none
  else if name = ['A', 'R', 'M'] then
    match args with
    | [count] => some (.arm count)
    | _ => none
  else none

/-- The mnemonic an API name of the document is an alias of (R68). -/
def mnemonicOfAlias (name : List Char) : Option (List Char) :=
  if name = ['r', 'e', 's', 'e', 't'] then some ['R', 'E', 'S', 'E', 'T']
  else if name = ['s', 'e', 't', '_', 'd', 'i', 's', 'p', 'l', 'a', 'y', '_', 'v', 'a', 'l', 'u', 'e'] then
    some ['S', 'E', 'T', 'V', 'A', 'L']
  else if name = ['s', 't', 'a', 'r', 't', '_', 'r', 'e', 'f', 'r', 'e', 's', 'h'] then
    some ['S', 'T', 'A', 'R', 'T']
  else if name = ['s', 't', 'o', 'p', '_', 'r', 'e', 'f', 'r', 'e', 's', 'h'] then
    some ['S', 'T', 'O', 'P']
  else none

/-- A line of text: a mnemonic with its operands, or an alias with them in parentheses (R68). -/
def parseLine (text : List Char) : Option AsmLine :=
  match tokens [] (uncomment text) with
  | [] => none
  | name :: rest =>
    match mnemonicOfAlias name with
    | some mnemonic => ((parenthesized rest).bind operands).bind (lineOfMnemonic mnemonic)
    | none => (operands rest).bind (lineOfMnemonic name)

end Sys2Proof
end

