-- ==== Sys2Proof/Config.lean ====
section
/-! DEFINITION. The parameters the spec leaves open (00_scope.md R9), as one record of plain data that State carries;
the agents (R7, R128); and the free values, which have no body. -/

namespace Sys2Proof

/-- The direction of a bus access (R46). -/
inductive Dir where
  | read
  | write
  deriving DecidableEq, Repr

/-- One bus access as BUS_ADMIT sees it: address, width in bytes, direction (R9, R47). -/
structure Access where
  addr : Nat
  width : Nat
  dir : Dir
  deriving DecidableEq, Repr

/-- The parameter BUS_ADMIT (R9, log 20): the default, or the list of the accesses the platform admits. -/
inductive BusAdmit where
  /-- "admits exactly the six accesses of 20_memory.md rule R46". -/
  | exactlySix
  /-- The platform admits exactly the accesses listed. -/
  | listed (accesses : List Access)
  deriving DecidableEq, Repr

/-- The parameter STOP_WHEN_DETACHED (R9). -/
inductive StopPolicy where
  | noop
  | fault
  deriving DecidableEq, Repr

/-- The parameters of R9. -/
structure Config where
  /-- `TIMER_RESOLUTION`, MTIME ticks per second. -/
  timerResolution : Word
  /-- `ADDR_DIGIT`. -/
  addrDigit : Nat
  /-- `ADDR_SEG`. -/
  addrSeg : Nat
  /-- `ADDR_MTIME_LO`. -/
  addrMtimeLo : Nat
  /-- `ADDR_MTIME_HI`. -/
  addrMtimeHi : Nat
  /-- `ADDR_MTIMECMP_LO`. -/
  addrMtimecmpLo : Nat
  /-- `ADDR_MTIMECMP_HI`. -/
  addrMtimecmpHi : Nat
  /-- `TIMER_IRQ_LINE`, the identifier of the one line ATTACHED is about; no rule computes with it (log 16). -/
  timerIrqLine : Nat
  /-- `INIT_VALUE`. -/
  initValue : Half
  /-- `INIT_RATE_HZ`. -/
  initRateHz : Word
  /-- `GIE_INIT`. -/
  gieInit : Bool
  /-- `STOP_WHEN_DETACHED`. -/
  stopWhenDetached : StopPolicy
  /-- `BUS_ADMIT`. -/
  busAdmit : BusAdmit
  deriving DecidableEq, Repr

/-- The agents of R7, one constructor per kind of step of R128. -/
inductive Agent where
  /-- Host issue (R128.1). -/
  | host
  /-- Foreground step (R128.2). -/
  | foreground
  /-- Background step (R128.3). -/
  | background
  /-- Delivery (R128.4). -/
  | deliver
  /-- Counter (R128.5). -/
  | counter
  /-- Drop (R128.6). -/
  | drop
  deriving DecidableEq, Repr, Inhabited

/-- FREE VALUE (log 1): the agent that moves, where State gives none. -/
opaque Config.freeAgent : Nat → Agent

/-- FREE VALUE (log 2): the command the host issues, where State gives none. -/
opaque Config.freeCommand : Nat → HostInput

/-- FREE VALUE (log 3): what STOP's draw of LATE takes from {0, 1}, where State gives none (R82). -/
opaque Config.freeLate : Nat → Bool

end Sys2Proof
end

