-- ==== Sys2Proof/Machine/Platform.lean ====
section
/-! DEFINITION. The platform's parameters: when they are legal (20_memory.md R45), which accesses the platform admits
(R46, R47), and the instance that `State.reset` is built on. -/

namespace Sys2Proof

namespace Config

/-- The six accesses of R46, in its order. -/
def sixAccesses (c : Config) : List Access :=
  [⟨c.addrDigit, 1, .write⟩, ⟨c.addrSeg, 1, .write⟩,
   ⟨c.addrMtimeLo, 4, .read⟩, ⟨c.addrMtimeHi, 4, .read⟩,
   ⟨c.addrMtimecmpLo, 4, .write⟩, ⟨c.addrMtimecmpHi, 4, .write⟩]

/-- The byte ranges of two accesses do not overlap. -/
def disjoint (a b : Access) : Bool :=
  a.addr + a.width ≤ b.addr || b.addr + b.width ≤ a.addr

/-- No two accesses of the list overlap. -/
def allDisjoint : List Access → Bool
  | [] => true
  | a :: rest => rest.all (disjoint a) && allDisjoint rest

/-- A legal configuration (R45): the six ranges do not overlap and the four timer addresses are multiples of 4; and
TIMER_RESOLUTION is in its range 1 .. 2^32-1 (R9, log 12). -/
def legal (c : Config) : Bool :=
  allDisjoint c.sixAccesses
    && c.addrMtimeLo % 4 == 0 && c.addrMtimeHi % 4 == 0
    && c.addrMtimecmpLo % 4 == 0 && c.addrMtimecmpHi % 4 == 0
    && c.timerResolution != 0

/-- `BUS_ADMIT(addr, width, dir)` (R47). -/
def admits (c : Config) (a : Access) : Bool :=
  match c.busAdmit with
  | .exactlySix => c.sixAccesses.contains a
  | .listed accesses => accesses.contains a

/-- The instance that `State.reset` is built on (DESIGN CHOICE, log 4): the common assumptions and start state of
95_test_vectors.md (TIMER_RESOLUTION 1000000, GIE_INIT 1, `noop`, default BUS_ADMIT; INIT_VALUE 0, INIT_RATE_HZ 1000 of
its programs), at addresses the spec leaves open. -/
def assumed : Config where
  timerResolution := 1000000
  addrDigit := 0x10000000
  addrSeg := 0x10000001
  addrMtimeLo := 0x20000000
  addrMtimeHi := 0x20000004
  addrMtimecmpLo := 0x20000008
  addrMtimecmpHi := 0x2000000C
  timerIrqLine := 0
  initValue := 0
  initRateHz := 1000
  gieInit := true
  stopWhenDetached := .noop
  busAdmit := .exactlySix

end Config

end Sys2Proof
end

