-- ==== Sys2Proof/Machine/State.lean ====
section
/-! DEFINITION. The state of the block and of the platform at its boundary (10_state.md), the reasons a step can stop,
and the state after power-on reset (R41, R131). -/

namespace Sys2Proof.Machine

/-- `FG_PHASE` (R38): the atomic step the host command in progress takes next. -/
inductive FgPhase where
  | idle
  | rs1
  | rs2
  | rs3
  | rs4
  | v1
  | v2
  | aArm
  | aAtt
  | sp1
  deriving DecidableEq, Repr

/-- `BG_PHASE` (R38): the atomic step TICK takes next. -/
inductive BgPhase where
  | none
  | t1
  | t2
  | t3
  | tArm
  | tx
  deriving DecidableEq, Repr

/-- `S_PHASE` (R38): the atomic step the scheduler takes next. -/
inductive SPhase where
  | off
  | s1
  | s2
  | s3
  | s4
  | s5
  | s6
  | s7
  | s8
  deriving DecidableEq, Repr

/-- `S_CALLER` (R38): whose scheduler run it is, START's (FG) or TICK's (BG). -/
inductive Caller where
  | fg
  | bg
  deriving DecidableEq, Repr

/-- The fault codes of R110. -/
inductive FaultCode where
  | divZero
  | doubleStart
  | busFault
  | stopDetached
  deriving DecidableEq, Repr

/-- The number of a fault code (R110). -/
def FaultCode.number : FaultCode → Nat
  | .divZero => 1
  | .doubleStart => 2
  | .busFault => 3
  | .stopDetached => 4

/-- The steps that make a bus access, and so the ones that can raise `BUS_FAULT` (R110). -/
inductive BusStep where
  | t1
  | t2
  | s2
  | s3
  | s5
  | s6
  | s7
  deriving DecidableEq, Repr

/-- What a fault records (R110). -/
inductive FaultInfo where
  /-- The command word. -/
  | command (word : Cmd)
  /-- `power-on`. -/
  | powerOn
  /-- Address, width, direction, and the step's phase. -/
  | access (access : Access) (step : BusStep)
  deriving DecidableEq, Repr

/-- A fault as it is recorded: its code and its information (R109, R110). -/
structure FaultRecord where
  code : FaultCode
  info : FaultInfo
  deriving DecidableEq, Repr

/-- Why `exec` can stop. The faults of the block itself (R110) are no stop: raising one is a next state in which FAULT
is recorded (R109, log 9). -/
inductive Fault where
  /-- Raised by a meaning called in a phase in which its instruction has no atomic step: "Any agent step not listed in
  rule R128 is not a step of the model" (R130). `step` never raises it: it calls the instruction of the phase. Safe
  (log 15). -/
  | notAStep
  deriving DecidableEq, Repr

/-- Why `step` or `exec` can have no meaning. -/
inductive Refusal where
  /-- Raised by no arm of this model: every instruction has its meaning. Safe. -/
  | notModelled (mnemonic : String)
  /-- Raised by `step` alone: "A model refuses an illegal configuration before the first step" (R45, log 12). Safe. -/
  | badConfig
  deriving DecidableEq, Repr

/-- The state. Registers and widths are those of 10_state.md; the last seven fields are the model's own. -/
structure State where
  /-- The parameters of R9; no step changes them (log 4). -/
  cfg : Config
  /-- `VALUE` (R19). -/
  value : Half
  /-- `DP_MASK` (R20). -/
  dpMask : Byte
  /-- `INDEX` (R21). -/
  index : BitVec 2
  /-- `REFRESH_TICKS` (R22). -/
  refreshTicks : Word
  /-- `ATTACHED` (R26). -/
  attached : Bool
  /-- `LATE` (R27). -/
  late : Bool
  /-- `PENDING` (R28). -/
  pending : Bool
  /-- `GIE` (R29), all the model has of the processor status register (R30). -/
  gie : Bool
  /-- `IRQ_SAVED_GIE` (R38); kept after TX (log 13). -/
  irqSavedGie : Bool
  /-- `MTIME` (R31). -/
  mtime : DWord
  /-- `MTIMECMP` (R33). -/
  mtimecmp : DWord
  /-- `GPIO_DIGIT` (R34). -/
  gpioDigit : Byte
  /-- `GPIO_SEG` (R35). -/
  gpioSeg : Byte
  /-- `S_COUNT` (R37). -/
  sCount : Word
  /-- `S_LO` (R37). -/
  sLo : Word
  /-- `S_HI` (R37). -/
  sHi : Word
  /-- `S_FIN` (R37). -/
  sFin : DWord
  /-- `S_SAVED` (R37). -/
  sSaved : Bool
  /-- `FG_PHASE` (R38). -/
  fgPhase : FgPhase
  /-- `BG_PHASE` (R38). -/
  bgPhase : BgPhase
  /-- `S_PHASE` (R38). -/
  sPhase : SPhase
  /-- `S_CALLER` (R38); kept after S8 (log 13). -/
  sCaller : Caller
  /-- `FAULT` and what was recorded with it (R40, R110). -/
  fault : Option FaultRecord
  /-- `REFUSED` (R40, R70). -/
  refused : Bool
  /-- The recorded reasons of the refusals, oldest first (R70, log 11). -/
  refusalLog : List RefuseReason
  /-- The operand `value` of the foreground command in progress (the model's own, log 6). -/
  opValue : Half
  /-- The operand `rate` of the foreground command in progress (the model's own, log 6). -/
  opRate : Word
  /-- The operand `dp` of the foreground command in progress (the model's own, log 6). -/
  opDp : Byte
  /-- The commands the host will issue, first first (the model's own, log 2). -/
  hostQueue : List HostInput
  /-- The agents that will move, first first (the model's own, log 1). -/
  schedule : List Agent
  /-- The values STOP's draws of LATE will take, first first (the model's own, log 3). -/
  lateDraws : List Bool
  /-- How many free values have been taken (the model's own, logs 1, 2, 3). -/
  draws : Nat
  deriving DecidableEq, Repr

/-- What the spec leaves without a value at power-on: the draws and unknown values of R41, and the registers it calls
unspecified (N6 to N9); REFRESH_TICKS only for a power-on that faults (log 24). -/
structure PowerOnValues where
  mtime : DWord
  mtimecmp : DWord
  pending : Bool
  gpioDigit : Byte
  gpioSeg : Byte
  irqSavedGie : Bool
  sCount : Word
  sLo : Word
  sHi : Word
  sFin : DWord
  sSaved : Bool
  sCaller : Caller
  refreshTicks : Word
  deriving DecidableEq, Repr

/-- The state after power-on reset for any parameters and any values the spec leaves open (R41, R131); an illegal
configuration is refused before power-on completes (R132). What FAULT and the registers hold there is open: they are as
in a legal configuration, and FAULT is none whatever INIT_RATE_HZ is (DESIGN CHOICE, unsafe, log 26). -/
def State.powerOn (c : Config) (p : PowerOnValues) : State where
  cfg := c
  value := c.initValue
  dpMask := 0
  index := 0
  refreshTicks := if c.initRateHz = 0 then p.refreshTicks else c.timerResolution / c.initRateHz
  attached := false
  late := false
  pending := p.pending
  gie := c.gieInit
  irqSavedGie := p.irqSavedGie
  mtime := p.mtime
  mtimecmp := p.mtimecmp
  gpioDigit := p.gpioDigit
  gpioSeg := p.gpioSeg
  sCount := p.sCount
  sLo := p.sLo
  sHi := p.sHi
  sFin := p.sFin
  sSaved := p.sSaved
  fgPhase := .idle
  bgPhase := .none
  sPhase := .off
  sCaller := p.sCaller
  fault := if c.legal = true ∧ c.initRateHz = 0 then some ⟨.divZero, .powerOn⟩ else none
  refused := !c.legal
  refusalLog := if c.legal then [] else [.badConfig]
  opValue := 0
  opRate := 0
  opDp := 0
  hostQueue := []
  schedule := []
  lateDraws := []
  draws := 0

/-- The values `State.reset` gives to what the spec leaves open (DESIGN CHOICE, log 5): the start state of the programs
of 95_test_vectors.md where it gives one, else 0. -/
def PowerOnValues.assumed : PowerOnValues where
  mtime := 0x1000
  mtimecmp := 0xFFFFFFFFFFFFFFFF
  pending := false
  gpioDigit := 0
  gpioSeg := 0
  irqSavedGie := false
  sCount := 0
  sLo := 0
  sHi := 0
  sFin := 0
  sSaved := false
  sCaller := .fg
  refreshTicks := 0

/-- The machine right after power-on reset, with the parameters and values of logs 4 and 5. -/
def State.reset : State := State.powerOn Config.assumed PowerOnValues.assumed

end Sys2Proof.Machine
end

