-- ==== Sys2Proof/Machine/Operands.lean ====
section
/-! DEFINITION. What the steps compute: nibbles, the segment ROM, the decimal point, the digit select, the index, the
interval, and the two halves of a 64-bit quantity. -/

namespace Sys2Proof.Machine

/-- `nib(v, i) = (v >> (i*4)) & 0xF` (R14). -/
def nib (v : Half) (i : BitVec 2) : BitVec 4 := ((v >>> (i.toNat * 4)) &&& 0xF#16).setWidth 4

/-- The 16 entries of `SEG_ROM`, nibble 0 first (R24). -/
def segRomTable : List Byte :=
  [0x3F, 0x06, 0x5B, 0x4F, 0x66, 0x6D, 0x7D, 0x07, 0x7F, 0x6F, 0x77, 0x7C, 0x39, 0x5E, 0x79, 0x71]

/-- `SEG_ROM[t]` (R24). -/
def segRom (t : BitVec 4) : Byte := segRomTable.getD t.toNat 0

/-- The decimal-point bit of digit `i`: `((DP_MASK >> INDEX) & 1) << 7` (R90). -/
def dpBit (mask : Byte) (i : BitVec 2) : Byte := ((mask >>> i.toNat) &&& 1#8) <<< 7

/-- The segment byte of digit `i`: `SEG_ROM[t] | dpbit` with `t = nib(VALUE, INDEX)` (R89, R91). -/
def segByte (v : Half) (mask : Byte) (i : BitVec 2) : Byte := segRom (nib v i) ||| dpBit mask i

/-- The digit select: `1 << INDEX` as a byte (R88). -/
def oneHot (i : BitVec 2) : Byte := 1#8 <<< i.toNat

/-- `(INDEX + 1) mod 4` in two bits (R92). -/
def nextIndex (i : BitVec 2) : BitVec 2 := i + 1

/-- `TIMER_RESOLUTION / rate`, unsigned and truncating (R76, R12). -/
def interval (timerResolution rate : Word) : Word := timerResolution / rate

/-- `v[31:0]`. -/
def lo32 (v : DWord) : Word := v.extractLsb' 0 32

/-- `v[63:32]`. -/
def hi32 (v : DWord) : Word := v.extractLsb' 32 32

/-- `{hi, lo}`: `hi` in bits 63:32, `lo` in bits 31:0 (R12). -/
def join (hi lo : Word) : DWord := hi.setWidth 64 <<< 32 ||| lo.setWidth 64

/-- `v` with its low half replaced (R33). -/
def withLo (v : DWord) (lo : Word) : DWord := join (hi32 v) lo

/-- `v` with its high half replaced (R33). -/
def withHi (v : DWord) (hi : Word) : DWord := join hi (lo32 v)

/-- The all-ones sentinel (R103). -/
def sentinel : Word := 0xFFFFFFFF

/-- The deadline `{S_HI, S_LO} + zext_64(S_COUNT)`, modulo 2^64 (R102). -/
def deadline (hi lo count : Word) : DWord := join hi lo + count.setWidth 64

/-- Byte `k` of a 32-bit register, bits 7..0 at the lowest address: little-endian (R48). -/
def byteOf (v : Word) (k : Nat) : Byte := v.extractLsb' (8 * k) 8

end Sys2Proof.Machine
end

