-- ==== Sys2Proof/Machine/Flags.lean ====
section
/-! DEFINITION. The conditions of the block: MATCH and its rising edge (R112, R113), the context (R39), the foreground's
step boundary (R116), when a delivery is enabled (R114), and which agents are enabled (R128). -/

namespace Sys2Proof.Machine

/-- `MATCH = (MTIME >= MTIMECMP)`, unsigned (R15, R112). -/
def matchOf (mtime mtimecmp : DWord) : Bool := decide (mtimecmp.toNat ≤ mtime.toNat)

/-- MATCH in a state. -/
def State.matchNow (s : State) : Bool := matchOf s.mtime s.mtimecmp

/-- A rising edge of MATCH between two states (R113). -/
def risingEdge (before after : State) : Bool := !before.matchNow && after.matchNow

/-- "The current context is background when `BG_PHASE != NONE`" (R39). -/
def State.inBackground (s : State) : Bool := s.bgPhase != .none

/-- The foreground is at a step boundary (R116): everywhere outside a scheduler run (log 8). -/
def State.atBoundary (s : State) : Bool := s.sPhase == .off

/-- The conditions under which a delivery is enabled, in the order of R114. -/
def State.deliveryEnabled (s : State) : Bool :=
  s.fault.isNone && s.pending && s.gie && (s.attached || s.late) && !s.inBackground && s.atBoundary

/-- The enabled atomic steps (R128); in a faulted state only the counter's (R109). -/
def State.enabled (s : State) : Agent → Bool
  | .host => s.fault.isNone && s.fgPhase == .idle && !s.inBackground
  | .foreground => s.fault.isNone && s.fgPhase != .idle && !s.inBackground
  | .background => s.fault.isNone && s.inBackground
  | .deliver => s.deliveryEnabled
  | .counter => true
  | .drop => s.fault.isNone && !s.attached && s.pending

/-- What is observed of the display: digit `i` receives the segment pattern while its select bit is 1 (R36). -/
def State.digitShows (s : State) (i : BitVec 2) : Option Byte :=
  if s.gpioDigit.getLsbD i.toNat then some s.gpioSeg else none

end Sys2Proof.Machine
end

