-- ==== Sys2Proof/Machine/Ops.lean ====
section
/-! DEFINITION. The shared operations: raising a fault and recording a refusal (R109, R70), the bus (R44 to R51), the
timer interrupt's latch, entry and return (R113, R114, R117), the call of the scheduler, the draws, the counter. -/

namespace Sys2Proof.Machine

/-- What a meaning answers. -/
abbrev Result := Host.Outcome State Fault Refusal

/-! ## Faults and refusals -/

/-- `raise Fault(code)`: the first fault is kept with its information, and every register stays as it is (R109). -/
def State.recordFault (s : State) (code : FaultCode) (info : FaultInfo) : State :=
  { s with fault := s.fault.or (some ⟨code, info⟩) }

/-- `refuse(reason)`: REFUSED is set, the reason recorded, nothing else changes (R70). -/
def State.recordRefusal (s : State) (reason : RefuseReason) : State :=
  { s with refused := true, refusalLog := s.refusalLog ++ [reason] }

/-! ## The bus -/

/-- The registers of the platform's address space (R46). -/
inductive BusReg where
  | gpioDigit
  | gpioSeg
  | mtimeLo
  | mtimeHi
  | mtimecmpLo
  | mtimecmpHi
  deriving DecidableEq, Repr

/-- The access a register is reached by: its row of R46. -/
def BusReg.access (c : Config) : BusReg → Access
  | .gpioDigit => ⟨c.addrDigit, 1, .write⟩
  | .gpioSeg => ⟨c.addrSeg, 1, .write⟩
  | .mtimeLo => ⟨c.addrMtimeLo, 4, .read⟩
  | .mtimeHi => ⟨c.addrMtimeHi, 4, .read⟩
  | .mtimecmpLo => ⟨c.addrMtimecmpLo, 4, .write⟩
  | .mtimecmpHi => ⟨c.addrMtimecmpHi, 4, .write⟩

/-- "the n-byte register at addr" (R47), for the direction it is accessed in. -/
def busRegAt (c : Config) (a : Access) : Option BusReg :=
  [BusReg.gpioDigit, .gpioSeg, .mtimeLo, .mtimeHi, .mtimecmpLo, .mtimecmpHi].find? (fun r => r.access c == a)

/-- A value on the bus, 1 or 4 bytes wide (R47). -/
inductive BusData where
  | byte (v : Byte)
  | word (v : Word)
  deriving DecidableEq, Repr

/-- The width in bytes. -/
def BusData.width : BusData → Nat
  | .byte _ => 1
  | .word _ => 4

/-- `MemRead(addr, 4)` (R47); none where the platform does not admit the access, or admits it and has no counter
register there (log 14). -/
def memRead (s : State) (addr : Nat) : Option Word :=
  if s.cfg.admits ⟨addr, 4, .read⟩ then
    match busRegAt s.cfg ⟨addr, 4, .read⟩ with
    | some .mtimeLo => some (lo32 s.mtime)
    | some .mtimeHi => some (hi32 s.mtime)
    | _ => none
  else none

/-- `MemWrite(addr, n, v)` (R47, R33); none as for `memRead`. -/
def memWrite (s : State) (addr : Nat) (v : BusData) : Option State :=
  if s.cfg.admits ⟨addr, v.width, .write⟩ then
    match busRegAt s.cfg ⟨addr, v.width, .write⟩, v with
    | some .gpioDigit, .byte b => some { s with gpioDigit := b }
    | some .gpioSeg, .byte b => some { s with gpioSeg := b }
    | some .mtimecmpLo, .word w => some { s with mtimecmp := withLo s.mtimecmp w }
    | some .mtimecmpHi, .word w => some { s with mtimecmp := withHi s.mtimecmp w }
    | _, _ => none
  else none

/-- A step that reads 4 bytes and goes on, or raises `BUS_FAULT` and changes nothing else (R47, R110). -/
def readThen (s : State) (step : BusStep) (addr : Nat) (k : Word → State) : Result :=
  match memRead s addr with
  | some w => .next (k w)
  | none => .next (s.recordFault .busFault (.access ⟨addr, 4, .read⟩ step))

/-- A step that writes and goes on, or raises `BUS_FAULT` and changes nothing else (R47, R110). -/
def writeThen (s : State) (step : BusStep) (addr : Nat) (v : BusData) (k : State → State) : Result :=
  match memWrite s addr v with
  | some t => .next (k t)
  | none => .next (s.recordFault .busFault (.access ⟨addr, v.width, .write⟩ step))

/-- The byte at an address of the platform's register space, each register laid out little-endian (R46, R48); none
where the space has no register. -/
def State.busByte (s : State) (a : Nat) : Option Byte :=
  if a = s.cfg.addrDigit then some s.gpioDigit
  else if a = s.cfg.addrSeg then some s.gpioSeg
  else if s.cfg.addrMtimeLo ≤ a ∧ a < s.cfg.addrMtimeLo + 4 then
    some (byteOf (lo32 s.mtime) (a - s.cfg.addrMtimeLo))
  else if s.cfg.addrMtimeHi ≤ a ∧ a < s.cfg.addrMtimeHi + 4 then
    some (byteOf (hi32 s.mtime) (a - s.cfg.addrMtimeHi))
  else if s.cfg.addrMtimecmpLo ≤ a ∧ a < s.cfg.addrMtimecmpLo + 4 then
    some (byteOf (lo32 s.mtimecmp) (a - s.cfg.addrMtimecmpLo))
  else if s.cfg.addrMtimecmpHi ≤ a ∧ a < s.cfg.addrMtimecmpHi + 4 then
    some (byteOf (hi32 s.mtimecmp) (a - s.cfg.addrMtimecmpHi))
  else none

/-! ## The timer interrupt -/

/-- "if MATCH_before = 0 and MATCH_after = 1: PENDING <- 1", after every atomic step (R113). -/
def State.latchEdge (before after : State) : State :=
  { after with pending := after.pending || risingEdge before after }

/-- Interrupt entry, the step ENTRY (R114). -/
def State.interruptEntry (s : State) : State :=
  { s with
    pending := false
    irqSavedGie := s.gie
    gie := false
    late := s.attached && s.late
    bgPhase := .t1 }

/-- Interrupt return, the step TX (R117). IRQ_SAVED_GIE has no specified value until the next entry; the model lets it
keep the one of this run (DESIGN CHOICE, unsafe, log 13). -/
def State.interruptReturn (s : State) : State :=
  { s with gie := s.irqSavedGie, bgPhase := .none }

/-- While nothing is attached PENDING may be cleared (R115). -/
def State.dropPending (s : State) : State := { s with pending := false }

/-- The counter's step: `MTIME <- MTIME + 1` modulo 2^64 (R32). -/
def State.advanceCounter (s : State) : State := { s with mtime := s.mtime + 1 }

/-! ## The scheduler's caller -/

/-- `S_CALLER <- caller; S_PHASE <- S1`: the first step of A_ARM and of T_ARM (R80, R87, R98). There is one scheduler,
never re-entered (R108). -/
def callScheduler (caller : Caller) (s : State) : Result :=
  match s.sPhase with
  | .off => .next { s with sCaller := caller, sPhase := .s1 }
  | _ => .fault .notAStep

/-- The end of a scheduler run: back to START at A_ATT or to TICK at TX (R106). S_CALLER has no specified value until
the next call; the model lets it keep the one of this run (DESIGN CHOICE, unsafe, log 13). -/
def State.returnToCaller (s : State) : State :=
  match s.sCaller with
  | .fg => { s with fgPhase := .aAtt }
  | .bg => { s with bgPhase := .tx }

/-! ## The draws (logs 1, 2, 3) -/

/-- `draw({0, 1})` for LATE: the next value given, else a free one (R82). -/
def drawLate (s : State) : Bool × State :=
  match s.lateDraws with
  | b :: rest => (b, { s with lateDraws := rest })
  | [] => (Config.freeLate s.draws, { s with draws := s.draws + 1 })

/-- The agent that moves: the next one given, else a free one (R111, R128). -/
def takeAgent (s : State) : Agent × State :=
  match s.schedule with
  | a :: rest => (a, { s with schedule := rest })
  | [] => (Config.freeAgent s.draws, { s with draws := s.draws + 1 })

/-- The command the host issues: the next one given, else a free one (R128.1). -/
def takeCommand (s : State) : HostInput × State :=
  match s.hostQueue with
  | x :: rest => (x, { s with hostQueue := rest })
  | [] => (Config.freeCommand s.draws, { s with draws := s.draws + 1 })

end Sys2Proof.Machine
end

