-- ==== Sys2Proof/Machine/Configure.lean ====
section
/-! DEFINITION. The host's four commands (40_config.md). A meaning performs the atomic step its instruction takes in
the phase the state is in: in IDLE the issue, with the precondition (R74, R128), then the steps R38 names (log 7). -/

namespace Sys2Proof.Machine

/-- RESET (R76): the precondition `rate > 0` at issue, then RS1 to RS4. -/
def execReset (value : Half) (rate : Word) (dp : Byte) (s : State) : Result :=
  match s.fgPhase with
  | .idle =>
    if rate = 0 then
      .next (s.recordFault .divZero (.command (encode (.reset value rate dp))))
    else
      .next { s with opValue := value, opRate := rate, opDp := dp, fgPhase := .rs1 }
  | .rs1 => .next { s with value := value, fgPhase := .rs2 }
  | .rs2 => .next { s with dpMask := dp, fgPhase := .rs3 }
  | .rs3 => .next { s with index := 0, fgPhase := .rs4 }
  | .rs4 =>
    .next { s with refreshTicks := interval s.cfg.timerResolution rate, fgPhase := .idle }
  | _ => .fault .notAStep

/-- SETVAL (R78): V1 and V2. -/
def execSetval (value : Half) (dp : Byte) (s : State) : Result :=
  match s.fgPhase with
  | .idle => .next { s with opValue := value, opDp := dp, fgPhase := .v1 }
  | .v1 => .next { s with value := value, fgPhase := .v2 }
  | .v2 => .next { s with dpMask := dp, fgPhase := .idle }
  | _ => .fault .notAStep

/-- START (R80, R81): the precondition `ATTACHED = 0` at issue, A_ARM, which calls the scheduler, and A_ATT. -/
def execStart (s : State) : Result :=
  match s.fgPhase with
  | .idle =>
    if s.attached then .next (s.recordFault .doubleStart (.command (encode .start)))
    else .next { s with fgPhase := .aArm }
  | .aArm => callScheduler .fg s
  | .aAtt => .next { s with attached := true, late := false, fgPhase := .idle }
  | _ => .fault .notAStep

/-- STOP (R82): with nothing attached what STOP_WHEN_DETACHED says, else SP1, which draws LATE. -/
def execStop (s : State) : Result :=
  match s.fgPhase with
  | .idle =>
    if s.attached then .next { s with fgPhase := .sp1 }
    else
      match s.cfg.stopWhenDetached with
      | .noop => .next s
      | .fault => .next (s.recordFault .stopDetached (.command (encode .stop)))
  | .sp1 =>
    let (l, t) := drawLate s
    .next { t with attached := false, late := l, fgPhase := .idle }
  | _ => .fault .notAStep

end Sys2Proof.Machine
end

