-- ==== Sys2Proof/Machine/Refresh.lean ====
section
/-! DEFINITION. TICK, the document's RefreshStep (41_refresh.md). -/

namespace Sys2Proof.Machine

/-- TICK (R87): in BG_PHASE NONE the entry by delivery (R114), then T1, T2, T3, T_ARM, which calls the scheduler, and
TX (R117). -/
def execTick (s : State) : Result :=
  match s.bgPhase with
  | .none => .next s.interruptEntry
  | .t1 =>
    writeThen s .t1 s.cfg.addrDigit (.byte (oneHot s.index)) (fun t => { t with bgPhase := .t2 })
  | .t2 =>
    writeThen s .t2 s.cfg.addrSeg (.byte (segByte s.value s.dpMask s.index))
      (fun t => { t with bgPhase := .t3 })
  | .t3 => .next { s with index := nextIndex s.index, bgPhase := .tArm }
  | .tArm => callScheduler .bg s
  | .tx => .next s.interruptReturn

end Sys2Proof.Machine
end

