-- ==== Sys2Proof/Machine/Scheduler.lean ====
section
/-! DEFINITION. ARM, the document's TimerScheduler (42_scheduler.md). -/

namespace Sys2Proof.Machine

/-- ARM (R98): S1 to S8. Its caller starts it at S1 (`callScheduler`); S1 latches the count. After S8
the temporaries of R37 have no specified value; the model lets them keep this run's (DESIGN CHOICE, unsafe, log 13). -/
def execArm (count : Word) (s : State) : Result :=
  match s.sPhase with
  | .off => .fault .notAStep
  | .s1 => .next { s with sCount := count, sSaved := s.gie, gie := false, sPhase := .s2 }
  | .s2 => readThen s .s2 s.cfg.addrMtimeLo (fun w => { s with sLo := w, sPhase := .s3 })
  | .s3 => readThen s .s3 s.cfg.addrMtimeHi (fun w => { s with sHi := w, sPhase := .s4 })
  | .s4 => .next { s with sFin := deadline s.sHi s.sLo s.sCount, sPhase := .s5 }
  | .s5 =>
    writeThen s .s5 s.cfg.addrMtimecmpLo (.word sentinel) (fun t => { t with sPhase := .s6 })
  | .s6 =>
    writeThen s .s6 s.cfg.addrMtimecmpHi (.word (hi32 s.sFin)) (fun t => { t with sPhase := .s7 })
  | .s7 =>
    writeThen s .s7 s.cfg.addrMtimecmpLo (.word (lo32 s.sFin)) (fun t => { t with sPhase := .s8 })
  | .s8 => .next { s.returnToCaller with gie := s.sSaved, sPhase := .off }

end Sys2Proof.Machine
end

