-- ==== Sys2Proof/Machine/Dispatch.lean ====
section
/-! DEFINITION. The meaning of each instruction: one arm per constructor of Instr. -/

namespace Sys2Proof.Machine

def exec (i : Instr) (s : State) : Host.Outcome State Fault Refusal :=
  match i with
  | .reset value rate dp => Sys2Proof.Machine.execReset value rate dp s
  | .setval value dp => Sys2Proof.Machine.execSetval value dp s
  | .start => Sys2Proof.Machine.execStart s
  | .stop => Sys2Proof.Machine.execStop s
  | .tick => Sys2Proof.Machine.execTick s
  | .arm count => Sys2Proof.Machine.execArm count s

end Sys2Proof.Machine
end

