-- ==== Sys2Proof/Machine/Agents.lean ====
section
/-! DEFINITION. The enabled atomic steps of the whole model (60_exceptions.md R128): what each agent does when it moves,
each step of the block an `exec` of the instruction its phase belongs to. -/

namespace Sys2Proof.Machine

/-- The instruction whose atomic step the foreground takes next: the command of FG_PHASE with its operands, and during
START's A_ARM the scheduler's (R38, R128.2). REFRESH_TICKS is the count as read at S1 (R80). -/
def State.foregroundInstr (s : State) : Option Instr :=
  match s.fgPhase with
  | .idle => none
  | .rs1 | .rs2 | .rs3 | .rs4 => some (.reset s.opValue s.opRate s.opDp)
  | .v1 | .v2 => some (.setval s.opValue s.opDp)
  | .aArm =>
    match s.sPhase with
    | .off => some .start
    | _ => some (.arm s.refreshTicks)
  | .aAtt => some .start
  | .sp1 => some .stop

/-- The instruction whose atomic step the background takes next: TICK's, and during T_ARM the scheduler's (R128.3,
R93). -/
def State.backgroundInstr (s : State) : Option Instr :=
  match s.bgPhase with
  | .none => none
  | .t1 | .t2 | .t3 | .tx => some .tick
  | .tArm =>
    match s.sPhase with
    | .off => some .tick
    | _ => some (.arm s.refreshTicks)

/-- Host issue (R128.1): one command is taken, a line assembled (R68, log 25), the word decoded; its instruction runs its
issue, or the command is refused and its reason recorded (R64, R70). -/
def hostIssue (s : State) : Result :=
  let (x, t) := takeCommand s
  match x.instr with
  | .ok i => exec i t
  | .error reason => .next (t.recordRefusal reason)

/-- The step of the instruction in progress, nothing where there is none. -/
def execNext (i : Option Instr) (s : State) : Result :=
  match i with
  | some i => exec i s
  | none => .next s

/-- What an agent does in its step (R128). -/
def agentStep (a : Agent) (s : State) : Result :=
  match a with
  | .host => hostIssue s
  | .foreground => execNext s.foregroundInstr s
  | .background => execNext s.backgroundInstr s
  | .deliver => exec .tick s
  | .counter => .next s.advanceCounter
  | .drop => .next s.dropPending

/-- "After every step, rule R113 updates PENDING" (R128). -/
def latched (before : State) (r : Result) : Result :=
  match r with
  | .next t => .next (before.latchEdge t)
  | .fault f => .fault f
  | .refused e => .refused e

/-- The chosen agent moves if its step is enabled (R128); a choice that is not enabled is passed over (log 1). -/
def runAgent (a : Agent) (s : State) : Result :=
  if s.enabled a then latched s (agentStep a s) else .next s

/-- One atomic step of the whole model: nothing in an illegal configuration (R45), else the step of the agent that
moves. -/
def atomicStep (s : State) : Result :=
  if s.cfg.legal then
    let (a, t) := takeAgent s
    runAgent a t
  else .refused .badConfig

/-- The state with a command word next in the host's hands and the host next to move, the foreground idle (log 18). -/
def State.withHostWord (s : State) (w : Cmd) : State :=
  { s with
    hostQueue := .word w :: s.hostQueue
    schedule := .host :: s.schedule
    fgPhase := .idle
    bgPhase := .none
    sPhase := .off
    fault := none }

/-- The state in which a delivery is enabled and next to move: the block is about to start TICK (R66, R114, log 18). -/
def State.withTick (s : State) : State :=
  { s with
    schedule := .deliver :: s.schedule
    bgPhase := .none
    sPhase := .off
    pending := true
    gie := true
    attached := true
    fault := none }

/-- The state in which START has called the scheduler for a count: the block is about to run ARM (R66, R80, log 18). -/
def State.withArm (s : State) (count : Word) : State :=
  { s with
    schedule := .foreground :: s.schedule
    fgPhase := .aArm
    bgPhase := .none
    sPhase := .s1
    sCaller := .fg
    refreshTicks := count
    fault := none }

/-- The state whose next step runs the operation of a command word: a word of the block's own where the block starts
it, any other where the host issues it (R66, log 18). -/
def State.withWord (s : State) (w : Cmd) : State :=
  match decode .block w with
  | .ok .tick => s.withTick
  | .ok (.arm count) => s.withArm count
  | _ => s.withHostWord w

end Sys2Proof.Machine
end

