-- ==== Sys2Proof/Machine/Step.lean ====
section
/-! DEFINITION. One step of the machine, and the state whose next step runs a given command word. -/

namespace Sys2Proof.Machine

/-- One step: one atomic step of one agent (R6, R128). -/
def step (s : State) : Host.Outcome State Fault Refusal := atomicStep s

/-- The state with the command word of the opcode table's numbering, its bits above `nbits` zero, in the place its
issuer takes it from, so that the next step runs it (log 18). -/
def State.withFetchWord (s : State) (nbits w : Nat) : State :=
  s.withWord (BitVec.ofNat 64 (w % 2 ^ nbits))

end Sys2Proof.Machine
end

