-- ==== Sys2Proof/Safety.lean ====
section
/-! DEFINITION. What counts as a safe run, in the terms claims use: the premise of R70 and R109, the invariant of the
sequencer, and the edges one scheduler run makes. -/

namespace Sys2Proof

/-- The platform admits the six accesses of R46, as the default BUS_ADMIT does (R47). -/
def Config.admitsSix (c : Config) : Bool := c.sixAccesses.all c.admits

/-- The accesses of a scheduler run, its two reads and its two writes (R46, R58). -/
def Config.schedulerAccesses (c : Config) : List Access :=
  [⟨c.addrMtimeLo, 4, .read⟩, ⟨c.addrMtimeHi, 4, .read⟩, ⟨c.addrMtimecmpLo, 4, .write⟩, ⟨c.addrMtimecmpHi, 4, .write⟩]

/-- The platform admits the accesses of a scheduler run, all that START needs (R58). -/
def Config.admitsScheduler (c : Config) : Bool := c.schedulerAccesses.all c.admits

namespace Machine

/-- The premise of every claim about a run: "`FAULT = none`" (R109) and "`REFUSED = false`" (R70). -/
def State.clean (s : State) : Prop := s.fault = none ∧ s.refused = false

/-- Masking: GIE is 0 from ENTRY to TX with 1 saved (R114, R118), and from S1 to S8 (R99, R137). -/
def State.MaskInv (s : State) : Prop :=
  (s.bgPhase ≠ .none → s.gie = false ∧ s.irqSavedGie = true) ∧
  (s.sPhase ≠ .off → s.sPhase ≠ .s1 → s.gie = false) ∧
  (s.bgPhase ≠ .none → s.sPhase ≠ .off → s.sPhase ≠ .s1 → s.sSaved = false)

/-- Calling: a scheduler run belongs to START in the foreground or to TICK, never to both (R108). -/
def State.CallInv (s : State) : Prop :=
  s.sPhase ≠ .off →
    (s.sCaller = .fg ∧ s.bgPhase = .none ∧ s.fgPhase = .aArm) ∨
    (s.sCaller = .bg ∧ s.bgPhase = .tArm)

/-- The count is REFRESH_TICKS from S2 on (R80, R93), the deadline the composed time plus the count from S5 on (R102),
and the comparator what the writes so far have made it (R53, R103 to R105). -/
def State.ComparatorInv (s : State) : Prop :=
  (s.sPhase ≠ .off → s.sPhase ≠ .s1 → s.sCount = s.refreshTicks) ∧
  (s.sPhase = .s5 ∨ s.sPhase = .s6 ∨ s.sPhase = .s7 ∨ s.sPhase = .s8 →
    s.sFin = join s.sHi s.sLo + s.sCount.setWidth 64) ∧
  (s.sPhase = .s6 → lo32 s.mtimecmp = 0xFFFFFFFF) ∧
  (s.sPhase = .s7 → s.mtimecmp = join (hi32 s.sFin) 0xFFFFFFFF) ∧
  (s.sPhase = .s8 → s.mtimecmp = s.sFin)

/-- Attachment: no late fire is owed while attached (R80, R82, R114); START runs detached and STOP's step attached. -/
def State.AttachInv (s : State) : Prop :=
  (s.attached = true → s.late = false) ∧
  (s.fgPhase = .aArm ∨ s.fgPhase = .aAtt → s.attached = false) ∧
  (s.fgPhase = .sp1 → s.attached = true)

/-- The ports during a TICK: what its completed steps have rendered (R88, R91, R94, R95). -/
def State.PortInv (s : State) : Prop :=
  (s.bgPhase = .t2 ∨ s.bgPhase = .t3 → s.gpioDigit = oneHot s.index) ∧
  (s.bgPhase = .t3 → s.gpioSeg = segByte s.value s.dpMask s.index) ∧
  (s.bgPhase = .tArm ∨ s.bgPhase = .tx →
    s.gpioDigit = oneHot (s.index - 1) ∧ s.gpioSeg = segByte s.value s.dpMask (s.index - 1))

/-- The operands of a RESET past its issue, the interval, and the mark of refusals (R76, R22, R70). -/
def State.MarkInv (s : State) : Prop :=
  (s.fgPhase = .rs1 ∨ s.fgPhase = .rs2 ∨ s.fgPhase = .rs3 ∨ s.fgPhase = .rs4 → s.opRate ≠ 0) ∧
  (s.cfg.legal = true → s.fault = none → s.refreshTicks.toNat ≤ s.cfg.timerResolution.toNat) ∧
  (s.refused = true ↔ s.refusalLog ≠ [])

/-- The invariant of the whole machine. -/
def State.Inv (s : State) : Prop :=
  s.MaskInv ∧ s.CallInv ∧ s.ComparatorInv ∧ s.AttachInv ∧ s.PortInv ∧ s.MarkInv

/-- Whether one scheduler run makes a rising edge of MATCH, the counter standing at `mtime`, `old` the comparator before
S5 and `fin` the deadline: the edges at S5, S6 and S7 (R103 to R105, R113). -/
def armEdge (mtime old fin : DWord) : Bool :=
  let afterS5 := withLo old sentinel
  let afterS6 := withHi afterS5 (hi32 fin)
  (!matchOf mtime old && matchOf mtime afterS5)
    || (!matchOf mtime afterS5 && matchOf mtime afterS6)
    || (!matchOf mtime afterS6 && matchOf mtime fin)

/-- The deadline START and TICK arm when the counter stands still: MTIME + REFRESH_TICKS (R98, R108). -/
def State.nextDeadline (s : State) : DWord := s.mtime + s.refreshTicks.setWidth 64

/-- `n` atomic steps of one instruction with no other agent between them. -/
def execTimes : Nat → Instr → State → Result
  | 0, _, s => .next s
  | n + 1, i, s =>
    match exec i s with
    | .next t => execTimes n i t
    | .fault f => .fault f
    | .refused e => .refused e

/-- The agents of one TICK from its delivery to its return: ENTRY, T1 to T3, the call, S1 to S8, TX (R87, R98). -/
def tickAgents : List Agent := .deliver :: List.replicate 13 .background

/-- The write an instruction makes in the phase it is in, with the address its meaning uses (R46, R58); none where it
makes no write. -/
def storedAccess (i : Instr) (s : State) : Option Access :=
  match i with
  | .reset _ _ _ => none
  | .setval _ _ => none
  | .start => none
  | .stop => none
  | .tick =>
    match s.bgPhase with
    | .t1 => some ⟨s.cfg.addrDigit, 1, .write⟩
    | .t2 => some ⟨s.cfg.addrSeg, 1, .write⟩
    | .none => none
    | .t3 => none
    | .tArm => none
    | .tx => none
  | .arm _ =>
    match s.sPhase with
    | .s5 => some ⟨s.cfg.addrMtimecmpLo, 4, .write⟩
    | .s6 => some ⟨s.cfg.addrMtimecmpHi, 4, .write⟩
    | .s7 => some ⟨s.cfg.addrMtimecmpLo, 4, .write⟩
    | .off => none
    | .s1 => none
    | .s2 => none
    | .s3 => none
    | .s4 => none
    | .s8 => none

/-- The state of a step's answer, none where it stops. -/
def nextOf : Result → Option State
  | .next t => some t
  | .fault _ => none
  | .refused _ => none

end Machine

end Sys2Proof
end

