-- ==== Sys2Proof/Certificates/Slice0/Obligations.lean ====
section
/-! DEFINITION. The statements for the provers, from the numbered rules of spec/. A statement over runs gives the
agents' order in `schedule`; each equation for a next state names every field that changes, and all others stay. -/

open Sys2Proof Sys2Proof.Machine

/-! ## Encoding (30_encoding.md) -/

/-- R60 to R64, R66: every instruction's word decodes to it for the block, and for the host unless it is the block's
own, with every operand at every value. -/
def Obligations.DecodeOfEncode : Prop :=
  ∀ i : Instr,
    decode .block (encode i) = .ok i ∧
    decode .host (encode i) = if i = .tick ∨ (∃ c, i = .arm c) then .error .internalOp else .ok i

/-- R60 to R64: a word that decodes is the word of its instruction, so each accepted word has one meaning and no bit
of it is dropped. -/
def Obligations.EncodeOfDecode : Prop :=
  ∀ (issuer : Issuer) (w : Cmd) (i : Instr), decode issuer w = .ok i → encode i = w ∧ i.wellFormed issuer = true

/-- R64, R65, R66: the decoder's refusals, each exactly where the rules say, checked in their order. -/
def Obligations.DecodeRefusals : Prop :=
  ∀ (issuer : Issuer) (w : Cmd),
    let op := w.extractLsb' 0 4
    let dp := w.extractLsb' 4 8
    let value := w.extractLsb' 12 16
    let rate := w.extractLsb' 28 32
    let rsv := w.extractLsb' 60 4
    let reservedBits :=
      rsv ≠ 0 ∨ (op ≠ 1 ∧ op ≠ 9 ∧ rate ≠ 0) ∨ (op ≠ 1 ∧ op ≠ 2 ∧ (value ≠ 0 ∨ dp ≠ 0))
    (decode issuer w = .error .reservedOp ↔ op ∉ [1, 2, 3, 4, 8, 9]) ∧
    (decode issuer w = .error .reservedBits ↔ op ∈ [1, 2, 3, 4, 8, 9] ∧ reservedBits) ∧
    (decode issuer w = .error .internalOp ↔ issuer = .host ∧ op ∈ [8, 9] ∧ ¬reservedBits) ∧
    decode issuer w ≠ .error .operandRange ∧ decode issuer w ≠ .error .badConfig

/-- R61, R62, R64: what an accepted word decodes to, by its opcode, each operand its field taken as it is. -/
def Obligations.DecodeFields : Prop :=
  ∀ (issuer : Issuer) (w : Cmd) (i : Instr), decode issuer w = .ok i →
    (w.extractLsb' 0 4 = 1 → i = .reset (w.extractLsb' 12 16) (w.extractLsb' 28 32) (w.extractLsb' 4 8)) ∧
    (w.extractLsb' 0 4 = 2 → i = .setval (w.extractLsb' 12 16) (w.extractLsb' 4 8)) ∧
    (w.extractLsb' 0 4 = 3 → i = .start) ∧
    (w.extractLsb' 0 4 = 4 → i = .stop) ∧
    (w.extractLsb' 0 4 = 8 → i = .tick) ∧
    (w.extractLsb' 0 4 = 9 → i = .arm (w.extractLsb' 28 32))

/-- R63: no word matches two rows, and an accepted word matches its instruction's row. -/
def Obligations.RowsDisjoint : Prop :=
  (∀ (w : Cmd) (r r' : Row), w &&& r.mask = r.matchBits → w &&& r'.mask = r'.matchBits → r = r') ∧
  (∀ (issuer : Issuer) (w : Cmd) (i : Instr), decode issuer w = .ok i → w &&& i.row.mask = i.row.matchBits)

/-- R71: the worked encodings, each word decoding to its command and encoded from it; the fourth decodes and faults
DIV_ZERO when performed. The performed fault is a next state at the command's issue, FAULT recorded and every register
as it was (R109, R110; logs 7, 9). -/
def Obligations.WorkedEncodings : Prop :=
  decode .host 0x000000190BEEF001 = .ok (.reset 0xBEEF 400 0) ∧ encode (.reset 0xBEEF 400 0) = 0x000000190BEEF001 ∧
  decode .host 0x0000003E81234001 = .ok (.reset 0x1234 1000 0) ∧ encode (.reset 0x1234 1000 0) = 0x0000003E81234001 ∧
  decode .host 0x0000000010F0F051 = .ok (.reset 0x0F0F 1 0x5) ∧ encode (.reset 0x0F0F 1 0x5) = 0x0000000010F0F051 ∧
  decode .host 0x000000000BEEF001 = .ok (.reset 0xBEEF 0 0) ∧ encode (.reset 0xBEEF 0 0) = 0x000000000BEEF001 ∧
  (∀ s : State, s.fgPhase = .idle → s.fault = none →
    exec (.reset 0xBEEF 0 0) s = .next { s with fault := some ⟨.divZero, .command 0x000000000BEEF001⟩ }) ∧
  decode .host 0x00000000012340A2 = .ok (.setval 0x1234 0b1010) ∧ encode (.setval 0x1234 0b1010) = 0x00000000012340A2 ∧
  decode .host 0x000000000FFFF0F2 = .ok (.setval 0xFFFF 0xF) ∧ encode (.setval 0xFFFF 0xF) = 0x000000000FFFF0F2 ∧
  decode .host 0x0000000000000003 = .ok .start ∧ encode .start = 0x0000000000000003 ∧
  decode .host 0x0000000000000004 = .ok .stop ∧ encode .stop = 0x0000000000000004 ∧
  decode .block 0x0000000000000008 = .ok .tick ∧ encode .tick = 0x0000000000000008 ∧
  decode .block 0x0000009C40000009 = .ok (.arm 2500) ∧ encode (.arm 2500) = 0x0000009C40000009

/-- R68: a line assembles unless an operand does not fit its field: fitting operands give a word that decodes to the
operands written, and any other operand gives the refusal OPERAND_RANGE. -/
def Obligations.AssembleRange : Prop :=
  (∀ value rate dp : Nat,
    (assemble (.reset value rate (some dp)) = .error .operandRange ↔
      ¬(value < 2 ^ 16 ∧ rate < 2 ^ 32 ∧ dp < 2 ^ 8)) ∧
    (value < 2 ^ 16 ∧ rate < 2 ^ 32 ∧ dp < 2 ^ 8 →
      ∃ w v r d, assemble (.reset value rate (some dp)) = .ok w ∧ decode .host w = .ok (.reset v r d) ∧
        v.toNat = value ∧ r.toNat = rate ∧ d.toNat = dp)) ∧
  (∀ value dp : Nat,
    (assemble (.setval value dp) = .error .operandRange ↔ ¬(value < 2 ^ 16 ∧ dp < 2 ^ 8)) ∧
    (value < 2 ^ 16 ∧ dp < 2 ^ 8 →
      ∃ w v d, assemble (.setval value dp) = .ok w ∧ decode .host w = .ok (.setval v d) ∧
        v.toNat = value ∧ d.toNat = dp)) ∧
  (∀ count : Nat,
    (assemble (.arm count) = .error .operandRange ↔ ¬count < 2 ^ 32) ∧
    (count < 2 ^ 32 →
      ∃ w c, assemble (.arm count) = .ok w ∧ decode .block w = .ok (.arm c) ∧ c.toNat = count)) ∧
  (assemble .start = .ok 3 ∧ assemble .stop = .ok 4 ∧ assemble .tick = .ok 8)

/-- R69: the expansions of the pseudo-operations. -/
def Obligations.AssemblePseudo : Prop :=
  ∀ value rate : Nat,
    assemble (.reset value rate none) = assemble (.reset value rate (some 0)) ∧
    assemble (.construct value rate) = assemble (.reset value rate (some 0))

/-! ## The bus (20_memory.md) -/

/-- R47, R9: the default BUS_ADMIT admits exactly the six accesses of R46. The default is `BusAdmit.exactlySix` of the
model's data (log 20). -/
def Obligations.DefaultAdmission : Prop :=
  ∀ c : Config, c.busAdmit = .exactlySix →
    ∀ a : Access, c.admits a = true ↔
      a = ⟨c.addrDigit, 1, .write⟩ ∨ a = ⟨c.addrSeg, 1, .write⟩ ∨ a = ⟨c.addrMtimeLo, 4, .read⟩ ∨
      a = ⟨c.addrMtimeHi, 4, .read⟩ ∨ a = ⟨c.addrMtimecmpLo, 4, .write⟩ ∨ a = ⟨c.addrMtimecmpHi, 4, .write⟩

/-- R47: "With that default, no access the block makes can fault". The default is `BusAdmit.exactlySix` of the model's
data (log 20), and a fault would be a next state (log 9). -/
def Obligations.DefaultNeverBusFaults : Prop :=
  ∀ (s t : State) (f : FaultRecord), s.cfg.busAdmit = .exactlySix → s.fault = none → step s = .next t →
    t.fault = some f → f.code ≠ .busFault

/-- R47, R109, R110: an access the platform does not admit records BUS_FAULT with address, width, direction and phase,
and changes nothing else. A fault is a next state (log 9). `exec` does not ask whether its agent is enabled (log 15).
-/
def Obligations.BusFaultRecorded : Prop :=
  ∀ (s : State) (count : Word), s.cfg.legal = true → s.fault = none →
    (s.bgPhase = .t1 → s.cfg.admits ⟨s.cfg.addrDigit, 1, .write⟩ = false →
      exec .tick s = .next { s with fault := some ⟨.busFault, .access ⟨s.cfg.addrDigit, 1, .write⟩ .t1⟩ }) ∧
    (s.bgPhase = .t2 → s.cfg.admits ⟨s.cfg.addrSeg, 1, .write⟩ = false →
      exec .tick s = .next { s with fault := some ⟨.busFault, .access ⟨s.cfg.addrSeg, 1, .write⟩ .t2⟩ }) ∧
    (s.sPhase = .s2 → s.cfg.admits ⟨s.cfg.addrMtimeLo, 4, .read⟩ = false →
      exec (.arm count) s =
        .next { s with fault := some ⟨.busFault, .access ⟨s.cfg.addrMtimeLo, 4, .read⟩ .s2⟩ }) ∧
    (s.sPhase = .s3 → s.cfg.admits ⟨s.cfg.addrMtimeHi, 4, .read⟩ = false →
      exec (.arm count) s =
        .next { s with fault := some ⟨.busFault, .access ⟨s.cfg.addrMtimeHi, 4, .read⟩ .s3⟩ }) ∧
    (s.sPhase = .s5 → s.cfg.admits ⟨s.cfg.addrMtimecmpLo, 4, .write⟩ = false →
      exec (.arm count) s =
        .next { s with fault := some ⟨.busFault, .access ⟨s.cfg.addrMtimecmpLo, 4, .write⟩ .s5⟩ }) ∧
    (s.sPhase = .s6 → s.cfg.admits ⟨s.cfg.addrMtimecmpHi, 4, .write⟩ = false →
      exec (.arm count) s =
        .next { s with fault := some ⟨.busFault, .access ⟨s.cfg.addrMtimecmpHi, 4, .write⟩ .s6⟩ }) ∧
    (s.sPhase = .s7 → s.cfg.admits ⟨s.cfg.addrMtimecmpLo, 4, .write⟩ = false →
      exec (.arm count) s =
        .next { s with fault := some ⟨.busFault, .access ⟨s.cfg.addrMtimecmpLo, 4, .write⟩ .s7⟩ })

/-- R46, R48: in a legal configuration each register is read at its own bytes, bits 7..0 at the lowest address. The
byte view is the model's (log 14). -/
def Obligations.RegisterBytes : Prop :=
  ∀ s : State, s.cfg.legal = true →
    s.busByte s.cfg.addrDigit = some s.gpioDigit ∧
    s.busByte s.cfg.addrSeg = some s.gpioSeg ∧
    ∀ k, k < 4 →
      s.busByte (s.cfg.addrMtimeLo + k) = some ((lo32 s.mtime).extractLsb' (8 * k) 8) ∧
      s.busByte (s.cfg.addrMtimeHi + k) = some ((hi32 s.mtime).extractLsb' (8 * k) 8) ∧
      s.busByte (s.cfg.addrMtimecmpLo + k) = some ((lo32 s.mtimecmp).extractLsb' (8 * k) 8) ∧
      s.busByte (s.cfg.addrMtimecmpHi + k) = some ((hi32 s.mtimecmp).extractLsb' (8 * k) 8)

/-- R46, R58: no instruction changes a byte of the address space outside the register it writes in its phase. The byte
view is the model's (log 14). -/
def Obligations.BytesOutsideStoreUnchanged : Prop :=
  ∀ (i : Instr) (s t : State), s.cfg.legal = true → exec i s = .next t →
    ∀ a : Nat,
      (∀ acc, storedAccess i s = some acc → ¬(acc.addr ≤ a ∧ a < acc.addr + acc.width)) →
      t.busByte a = s.busByte a

/-- R45, R132: in an illegal configuration power-on is marked refused with BAD_CONFIG and no step is taken. A
TIMER_RESOLUTION of 0 counts as illegal, and the mark is that of power-on (log 12). The reasons are kept in a list
(log 11). -/
def Obligations.IllegalConfigRefused : Prop :=
  (∀ s : State, s.cfg.legal = false → step s = .refused .badConfig) ∧
  (∀ (c : Config) (p : PowerOnValues), c.legal = false →
    (State.powerOn c p).refused = true ∧ (State.powerOn c p).refusalLog = [.badConfig])

/-! ## Power-on reset (10_state.md, 70_reset_and_hazards.md) -/

/-- R41: the state after power-on reset, the draws and unspecified registers at any value. With INIT_RATE_HZ = 0 the
registers are as the table gives them (log 24). -/
def Obligations.PowerOnState : Prop :=
  ∀ (c : Config) (p : PowerOnValues), c.legal = true →
    let s := State.powerOn c p
    s.value = c.initValue ∧ s.dpMask = 0 ∧ s.index = 0 ∧
    (c.initRateHz ≠ 0 → s.refreshTicks = c.timerResolution / c.initRateHz ∧ s.fault = none) ∧
    (c.initRateHz = 0 → s.fault = some ⟨.divZero, .powerOn⟩) ∧
    s.attached = false ∧ s.late = false ∧ s.pending = p.pending ∧ s.gie = c.gieInit ∧
    s.irqSavedGie = p.irqSavedGie ∧ s.sCount = p.sCount ∧ s.sLo = p.sLo ∧ s.sHi = p.sHi ∧ s.sFin = p.sFin ∧
    s.sSaved = p.sSaved ∧ s.fgPhase = .idle ∧ s.bgPhase = .none ∧ s.sPhase = .off ∧ s.sCaller = p.sCaller ∧
    s.mtime = p.mtime ∧ s.mtimecmp = p.mtimecmp ∧ s.gpioDigit = p.gpioDigit ∧ s.gpioSeg = p.gpioSeg ∧
    s.refused = false

/-- R84, R131: construction is RS1 to RS4 of RESET with operands (INIT_VALUE, INIT_RATE_HZ, 0): run from any idle
state, they leave the display registers that power-on leaves. The issue is a step of its own (log 7). In an illegal
configuration the registers after power-on are the model's choice (log 26). `exec` does not ask whether its agent is
enabled (log 15). -/
def Obligations.PowerOnIsConstruction : Prop :=
  ∀ (p : PowerOnValues) (s : State), s.fgPhase = .idle → s.cfg.initRateHz ≠ 0 →
    ∃ t, execTimes 5 (.reset s.cfg.initValue s.cfg.initRateHz 0) s = .next t ∧
      t.value = (State.powerOn s.cfg p).value ∧ t.dpMask = (State.powerOn s.cfg p).dpMask ∧
      t.index = (State.powerOn s.cfg p).index ∧ t.refreshTicks = (State.powerOn s.cfg p).refreshTicks ∧
      t.fgPhase = .idle

/-- The invariant holds after every power-on reset (any parameters, any draws), and at the reset state the model names
(logs 4 and 5). In an illegal configuration the registers and FAULT after power-on are the model's choice (log 26).
The invariant is the one of StepKeepsInv (logs 6, 8, 11), and the refusal of an illegal configuration is recorded (log
12). -/
def Obligations.PowerOnMeetsInv : Prop :=
  (∀ (c : Config) (p : PowerOnValues), (State.powerOn c p).Inv) ∧ State.reset.Inv

/-! ## RESET (R76, R77) -/

/-- R76, R74: RESET at issue: a rate of 0 faults DIV_ZERO with the command word recorded and nothing written; else its
first step is next. The issue is a step of its own (log 7), the operands are kept in the model's own fields (log 6). A
fault is a next state (log 9). `exec` does not ask whether its agent is enabled (log 15). -/
def Obligations.ResetIssue : Prop :=
  ∀ (value : Half) (rate : Word) (dp : Byte) (s : State), s.fgPhase = .idle →
    (rate ≠ 0 → exec (.reset value rate dp) s =
      .next { s with opValue := value, opRate := rate, opDp := dp, fgPhase := .rs1 }) ∧
    (rate = 0 → s.fault = none → exec (.reset value rate dp) s =
      .next { s with fault := some ⟨.divZero, .command (encode (.reset value 0 dp))⟩ })

/-- R76: the steps RS1 to RS4 of RESET, each writing its register alone. `exec` does not ask whether its agent is
enabled (log 15). -/
def Obligations.ResetSteps : Prop :=
  ∀ (value : Half) (rate : Word) (dp : Byte) (s : State),
    (s.fgPhase = .rs1 → exec (.reset value rate dp) s = .next { s with value := value, fgPhase := .rs2 }) ∧
    (s.fgPhase = .rs2 → exec (.reset value rate dp) s = .next { s with dpMask := dp, fgPhase := .rs3 }) ∧
    (s.fgPhase = .rs3 → exec (.reset value rate dp) s = .next { s with index := 0, fgPhase := .rs4 }) ∧
    (s.fgPhase = .rs4 → exec (.reset value rate dp) s =
      .next { s with refreshTicks := s.cfg.timerResolution / rate, fgPhase := .idle })

/-- R76, R77, R85: a RESET the host issues, run with no other agent between its steps. The agents' order is given in
`schedule` (log 1), the host's commands in `hostQueue` (log 2). The operands are kept in the model's own fields
`opValue`, `opRate` and `opDp` (log 6). The 5 steps count the issue (log 7). REFUSED may be set (log 10). -/
def Obligations.ResetRun : Prop :=
  ∀ (value : Half) (rate : Word) (dp : Byte) (s : State) (q : List HostInput) (rest : List Agent),
    s.cfg.legal = true → s.fault = none → s.fgPhase = .idle → s.bgPhase = .none → rate ≠ 0 →
    s.hostQueue = .word (encode (.reset value rate dp)) :: q →
    s.schedule = .host :: List.replicate 4 .foreground ++ rest →
    Host.Core.run core 5 s =
      .next { s with
        value := value, dpMask := dp, index := 0, refreshTicks := s.cfg.timerResolution / rate
        opValue := value, opRate := rate, opDp := dp, hostQueue := q, schedule := rest }

/-! ## SETVAL (R78, R79) -/

/-- R78: SETVAL's issue and its steps V1 and V2. The issue is a step of its own (log 7), the operands are kept in the
model's own fields (log 6). `exec` does not ask whether its agent is enabled (log 15). -/
def Obligations.SetvalSteps : Prop :=
  ∀ (value : Half) (dp : Byte) (s : State),
    (s.fgPhase = .idle → exec (.setval value dp) s =
      .next { s with opValue := value, opDp := dp, fgPhase := .v1 }) ∧
    (s.fgPhase = .v1 → exec (.setval value dp) s = .next { s with value := value, fgPhase := .v2 }) ∧
    (s.fgPhase = .v2 → exec (.setval value dp) s = .next { s with dpMask := dp, fgPhase := .idle })

/-- R78, R85: a SETVAL the host issues, run with no other agent between its steps. The agents' order is given in
`schedule` (log 1), the host's commands in `hostQueue` (log 2). The operands are kept in the model's own fields
`opValue` and `opDp` (log 6). The 3 steps count the issue (log 7). REFUSED may be set (log 10). -/
def Obligations.SetvalRun : Prop :=
  ∀ (value : Half) (dp : Byte) (s : State) (q : List HostInput) (rest : List Agent),
    s.cfg.legal = true → s.fault = none → s.fgPhase = .idle → s.bgPhase = .none →
    s.hostQueue = .word (encode (.setval value dp)) :: q →
    s.schedule = [.host, .foreground, .foreground] ++ rest →
    Host.Core.run core 3 s =
      .next { s with value := value, dpMask := dp, opValue := value, opDp := dp, hostQueue := q, schedule := rest }

/-- R79: SETVAL is idempotent: a second one with the same operands leaves the whole state as it is. The issue is a
step of its own (log 7). The operands are kept in the model's own fields (log 6). `exec` does not ask whether its
agent is enabled (log 15). -/
def Obligations.SetvalIdempotent : Prop :=
  ∀ (value : Half) (dp : Byte) (s : State), s.fgPhase = .idle →
    ∃ t, execTimes 3 (.setval value dp) s = .next t ∧ execTimes 3 (.setval value dp) t = .next t ∧
      t.value = value ∧ t.dpMask = dp ∧ t.index = s.index ∧ t.refreshTicks = s.refreshTicks

/-! ## START and STOP (R80 to R83) -/

/-- R80, R81: START at issue (a second START faults DOUBLE_START and writes nothing), its call of the scheduler, and
its attach step. The issue and the call are steps of their own (logs 7, 8). A fault is a next state (log 9). `exec`
does not ask whether its agent is enabled (log 15). -/
def Obligations.StartSteps : Prop :=
  ∀ s : State,
    (s.fgPhase = .idle → s.attached = false → exec .start s = .next { s with fgPhase := .aArm }) ∧
    (s.fgPhase = .idle → s.attached = true → s.fault = none → exec .start s =
      .next { s with fault := some ⟨.doubleStart, .command 3⟩ }) ∧
    (s.fgPhase = .aArm → s.sPhase = .off → exec .start s =
      .next { s with sCaller := .fg, sPhase := .s1 }) ∧
    (s.fgPhase = .aAtt → exec .start s =
      .next { s with attached := true, late := false, fgPhase := .idle })

/-- R80, R98, R108: a START the host issues, run with no other agent between its steps: the comparator is MTIME +
REFRESH_TICKS, the handler is attached, GIE is as before, and PENDING is set where the three writes make an edge. The
scheduler's temporaries and S_CALLER have no specified value after the run: the ones here are the model's choice (log
13). The 11 steps count the issue and the call (logs 7, 8). The agents' order is given in `schedule` (log 1), the
host's commands in `hostQueue` (log 2). REFUSED may be set (log 10). -/
def Obligations.StartRun : Prop :=
  ∀ (s : State) (q : List HostInput) (rest : List Agent),
    s.cfg.legal = true → s.cfg.admitsScheduler = true → s.fault = none → s.attached = false →
    s.fgPhase = .idle → s.bgPhase = .none → s.sPhase = .off →
    s.hostQueue = .word (encode .start) :: q →
    s.schedule = .host :: List.replicate 10 .foreground ++ rest →
    Host.Core.run core 11 s =
      .next { s with
        attached := true, late := false
        mtimecmp := s.mtime + s.refreshTicks.setWidth 64
        pending := s.pending || armEdge s.mtime s.mtimecmp (s.mtime + s.refreshTicks.setWidth 64)
        sCount := s.refreshTicks, sLo := lo32 s.mtime, sHi := hi32 s.mtime
        sFin := s.mtime + s.refreshTicks.setWidth 64, sSaved := s.gie, sCaller := .fg
        hostQueue := q, schedule := rest }

/-- R82: STOP at issue: attached, its step SP1 is next; detached, nothing or STOP_DETACHED, as the parameter says; and
SP1 detaches and draws LATE, either value being admitted. The issue is a step of its own (log 7), the draw is
`lateDraws` or free (log 3). A fault is a next state (log 9). `exec` does not ask whether its agent is enabled (log
15). -/
def Obligations.StopSteps : Prop :=
  ∀ s : State,
    (s.fgPhase = .idle → s.attached = true → exec .stop s = .next { s with fgPhase := .sp1 }) ∧
    (s.fgPhase = .idle → s.attached = false → s.cfg.stopWhenDetached = .noop → exec .stop s = .next s) ∧
    (s.fgPhase = .idle → s.attached = false → s.cfg.stopWhenDetached = .fault → s.fault = none →
      exec .stop s = .next { s with fault := some ⟨.stopDetached, .command 4⟩ }) ∧
    (s.fgPhase = .sp1 → ∀ (b : Bool) (bs : List Bool), s.lateDraws = b :: bs → exec .stop s =
      .next { s with attached := false, late := b, fgPhase := .idle, lateDraws := bs }) ∧
    (s.fgPhase = .sp1 → s.lateDraws = [] → ∃ b : Bool, exec .stop s =
      .next { s with attached := false, late := b, fgPhase := .idle, draws := s.draws + 1 })

/-- R83, R27, R114: while detached with no late fire owed no TICK starts and none comes to be owed; only START's
attach step ends that; and a delivery taken while detached uses the late fire up. The premise is the invariant of
StepKeepsInv (logs 6, 8, 11). -/
def Obligations.LateFireAtMostOnce : Prop :=
  ∀ s t : State, s.Inv → step s = .next t → s.attached = false →
    (s.late = false → t.late = false ∧ (t.bgPhase ≠ .none → s.bgPhase ≠ .none)) ∧
    (t.attached = true → s.fgPhase = .aAtt ∧ t.late = false) ∧
    (s.bgPhase = .none → t.bgPhase ≠ .none → s.late = true ∧ t.late = false)

/-! ## TICK (R87 to R97) and the timer interrupt (R112 to R118) -/

/-- R114, R116: when a delivery is enabled, the entry it takes, and that a choice of it is passed over otherwise (log
1). The agents' order is given in `schedule` (log 1). A boundary of R116 is S_PHASE = OFF, so none falls between a
call of the scheduler and S1 (log 8). A faulted state passes the choice over (log 9), a refusal does not (log 10). -/
def Obligations.DeliveryEntry : Prop :=
  ∀ (s : State) (rest : List Agent), s.cfg.legal = true → s.schedule = .deliver :: rest →
    let enabled := s.fault = none ∧ s.pending = true ∧ s.gie = true ∧ (s.attached = true ∨ s.late = true) ∧
      s.bgPhase = .none ∧ s.sPhase = .off
    (enabled → step s = .next { s with
      schedule := rest, pending := false, irqSavedGie := s.gie, gie := false
      late := if s.attached then s.late else false, bgPhase := .t1 }) ∧
    (¬enabled → step s = .next { s with schedule := rest })

/-- R87, R88, R91, R92, R117, R114: the steps of TICK, T1 and T2 where the platform admits their own access, the
others on any platform; T_ARM calls the scheduler. The call of the scheduler is a step of its own (log 8). Registers
with no specified value after the return keep theirs (log 13). `exec` does not ask whether its agent is enabled (log
15). -/
def Obligations.TickSteps : Prop :=
  ∀ s : State,
    (s.bgPhase = .none → exec .tick s = .next { s with
      pending := false, irqSavedGie := s.gie, gie := false
      late := if s.attached then s.late else false, bgPhase := .t1 }) ∧
    (s.bgPhase = .t1 → s.cfg.legal = true → s.cfg.admits ⟨s.cfg.addrDigit, 1, .write⟩ = true → exec .tick s =
      .next { s with gpioDigit := 1#8 <<< s.index.toNat, bgPhase := .t2 }) ∧
    (s.bgPhase = .t2 → s.cfg.legal = true → s.cfg.admits ⟨s.cfg.addrSeg, 1, .write⟩ = true → exec .tick s =
      .next { s with
        gpioSeg := segRom (nib s.value s.index) ||| (((s.dpMask >>> s.index.toNat) &&& 1#8) <<< 7)
        bgPhase := .t3 }) ∧
    (s.bgPhase = .t3 → exec .tick s = .next { s with index := s.index + 1, bgPhase := .tArm }) ∧
    (s.bgPhase = .tArm → s.sPhase = .off → exec .tick s = .next { s with sCaller := .bg, sPhase := .s1 }) ∧
    (s.bgPhase = .tx → exec .tick s = .next { s with gie := s.irqSavedGie, bgPhase := .none })

/-- R24: the sixteen entries of SEG_ROM, nibble 0 first: what digit `i` shows of VALUE with no decimal point. -/
def Obligations.SegmentRom : Prop :=
  ∀ (v : Half) (i : BitVec 2), segByte v 0 i =
    ([0x3F, 0x06, 0x5B, 0x4F, 0x66, 0x6D, 0x7D, 0x07, 0x7F, 0x6F, 0x77, 0x7C, 0x39, 0x5E, 0x79, 0x71] : List Byte).getD
      (v.toNat / 2 ^ (4 * i.toNat) % 16) 0

/-- R14: the nibble of digit `i` is bits 4i+3 to 4i of VALUE. -/
def Obligations.NibbleLanes : Prop :=
  ∀ v : Half,
    nib v 0 = v.extractLsb' 0 4 ∧ nib v 1 = v.extractLsb' 4 4 ∧
    nib v 2 = v.extractLsb' 8 4 ∧ nib v 3 = v.extractLsb' 12 4 ∧
    ∀ i : BitVec 2, (nib v i).toNat = v.toNat / 2 ^ (4 * i.toNat) % 16

/-- R25, R90, R91: bit 7 of the segment byte is the digit's decimal point, bits 6..0 the ROM's; and the digit select
has exactly the bit of INDEX (R88). -/
def Obligations.RenderedBits : Prop :=
  ∀ (v : Half) (m : Byte) (i : BitVec 2),
    (segByte v m i).getLsbD 7 = m.getLsbD i.toNat ∧
    (∀ k, k < 7 → (segByte v m i).getLsbD k = (segRom (nib v i)).getLsbD k) ∧
    (∀ k, k < 8 → ((oneHot i).getLsbD k = true ↔ k = i.toNat))

/-- R87, R95, R114, R117, R119: one whole TICK from its delivery to its return, with no other agent between its steps:
the ports show the digit of INDEX, INDEX is advanced, the comparator re-armed, GIE is back, and the foreground is as
it was. The scheduler's temporaries, S_CALLER and IRQ_SAVED_GIE have no specified value after the run: the ones here
are the model's choice (log 13). The 14 steps count the call (log 8). The agents' order is given in `schedule` (log
1). REFUSED may be set (log 10). -/
def Obligations.TickRun : Prop :=
  ∀ (s : State) (rest : List Agent),
    s.cfg.legal = true → s.cfg.admitsSix = true → s.deliveryEnabled = true →
    s.schedule = tickAgents ++ rest →
    Host.Core.run core 14 s =
      .next { s with
        gpioDigit := oneHot s.index, gpioSeg := segByte s.value s.dpMask s.index, index := s.index + 1
        mtimecmp := s.mtime + s.refreshTicks.setWidth 64
        pending := armEdge s.mtime s.mtimecmp (s.mtime + s.refreshTicks.setWidth 64)
        late := if s.attached then s.late else false
        irqSavedGie := true, gie := true
        sCount := s.refreshTicks, sLo := lo32 s.mtime, sHi := hi32 s.mtime
        sFin := s.mtime + s.refreshTicks.setWidth 64, sSaved := false, sCaller := .bg
        schedule := rest }

/-- R96, R144, R36: after T1 and before T2 the newly selected digit, and no other, shows the previous segment byte.
The agents' order is given in `schedule` (log 1). REFUSED may be set (log 10). -/
def Obligations.GhostDigit : Prop :=
  ∀ (s : State) (rest : List Agent),
    s.cfg.legal = true → s.cfg.admits ⟨s.cfg.addrDigit, 1, .write⟩ = true → s.fault = none →
    s.bgPhase = .t1 → s.schedule = .background :: rest →
    ∃ t, step s = .next t ∧ t.bgPhase = .t2 ∧
      ∀ i : BitVec 2, t.digitShows i = if i = s.index then some s.gpioSeg else none

/-- R112: MATCH is the unsigned comparison, and after MTIME wraps to 0 it is 0 again for every MTIMECMP but 0. -/
def Obligations.MatchCondition : Prop :=
  (∀ s : State, s.matchNow = true ↔ s.mtime.toNat ≥ s.mtimecmp.toNat) ∧
  (∀ s : State, s.mtime = 0xFFFFFFFFFFFFFFFF → s.mtimecmp ≠ 0 →
    s.matchNow = true ∧ s.advanceCounter.matchNow = false)

/-- R113, R28, R114, R115: every step sets PENDING on a rising edge of MATCH, whatever GIE, ATTACHED and LATE are;
nothing else sets it; PENDING is cleared by a delivery's entry or by a drop while detached, and by nothing else; so
while GIE is 0, as in START's critical section, a pending edge is kept by every step but such a drop. The turn and the
draws are the model's `schedule` and `draws` (log 1). The latch follows every step, a faulted state's counter step and
a step after a refusal too (logs 9, 10, 17), and a delivery's boundary is S_PHASE = OFF (log 8). -/
def Obligations.PendingOnRisingEdge : Prop :=
  ∀ s t : State, step s = .next t →
    let dropped := s.fault = none ∧ s.attached = false ∧
      t = { s with pending := false, schedule := t.schedule, draws := t.draws }
    (s.matchNow = false → t.matchNow = true → t.pending = true) ∧
    (t.pending = true → s.pending = true ∨ (s.matchNow = false ∧ t.matchNow = true)) ∧
    (s.pending = true → t.pending = false →
      (s.deliveryEnabled = true ∧ t = { s with
        pending := false, irqSavedGie := s.gie, gie := false, late := if s.attached then s.late else false
        bgPhase := .t1, schedule := t.schedule, draws := t.draws }) ∨ dropped) ∧
    (s.pending = true → s.gie = false → t.pending = true ∨ dropped)

/-- R32, R113: the counter may step in every state, faulted or masked, and wraps modulo 2^64. The agents' order is
given in `schedule` (log 1). That it steps in a faulted state (R109) is a next state there (log 9), and the latch
follows it (log 17). REFUSED may be set (log 10). -/
def Obligations.CounterStep : Prop :=
  ∀ (s : State) (rest : List Agent), s.cfg.legal = true → s.schedule = .counter :: rest →
    step s = .next { s with
      mtime := s.mtime + 1, schedule := rest
      pending := s.pending ||
        (!decide (s.mtimecmp.toNat ≤ s.mtime.toNat) && decide (s.mtimecmp.toNat ≤ (s.mtime + 1).toNat)) }

/-- R115: PENDING may be dropped while nothing is attached, and only then: while attached the choice is passed over
(log 1). The agents' order is given in `schedule` (log 1). REFUSED may be set (log 10). -/
def Obligations.DropWhileDetached : Prop :=
  ∀ (s : State) (rest : List Agent), s.cfg.legal = true → s.fault = none → s.schedule = .drop :: rest →
    (s.attached = false → step s = .next { s with pending := false, schedule := rest }) ∧
    (s.attached = true → step s = .next { s with schedule := rest })

/-- R118, R94, R119: while TICK runs GIE is 0, no delivery is enabled, only TX ends it and brings GIE back, and no
register of the foreground changes. The premise is the invariant of StepKeepsInv (logs 6, 8, 11). -/
def Obligations.NoNesting : Prop :=
  ∀ s t : State, s.Inv → step s = .next t → s.bgPhase ≠ .none →
    s.gie = false ∧ s.deliveryEnabled = false ∧
    (t.bgPhase ≠ .none → t.gie = false) ∧
    (t.bgPhase = .none → s.bgPhase = .tx ∧ t.gie = true) ∧
    t.fgPhase = s.fgPhase ∧ t.value = s.value ∧ t.dpMask = s.dpMask ∧ t.refreshTicks = s.refreshTicks ∧
    t.attached = s.attached ∧ (t.index ≠ s.index → s.bgPhase = .t3 ∧ t.index = s.index + 1)

/-! ## ARM (R98 to R108) -/

/-- R98 to R102: S1 saves and clears GIE and latches the count and S4 adds modulo 2^64, both on any platform; S2 and
S3, where the platform admits their own read, take the low and then the high half of MTIME as it is then. `exec` does
not ask whether its agent is enabled (log 15). -/
def Obligations.ArmReadSteps : Prop :=
  ∀ (count : Word) (s : State),
    (s.sPhase = .s1 → exec (.arm count) s =
      .next { s with sCount := count, sSaved := s.gie, gie := false, sPhase := .s2 }) ∧
    (s.sPhase = .s2 → s.cfg.legal = true → s.cfg.admits ⟨s.cfg.addrMtimeLo, 4, .read⟩ = true →
      exec (.arm count) s = .next { s with sLo := s.mtime.extractLsb' 0 32, sPhase := .s3 }) ∧
    (s.sPhase = .s3 → s.cfg.legal = true → s.cfg.admits ⟨s.cfg.addrMtimeHi, 4, .read⟩ = true →
      exec (.arm count) s = .next { s with sHi := s.mtime.extractLsb' 32 32, sPhase := .s4 }) ∧
    (s.sPhase = .s4 → exec (.arm count) s =
      .next { s with
        sFin := BitVec.ofNat 64 (s.sHi.toNat * 2 ^ 32 + s.sLo.toNat + s.sCount.toNat), sPhase := .s5 })

/-- R103 to R106: S5 writes the sentinel to the comparator's low half, S6 its high half, S7 its low half, each where
the platform admits its own write; S8, on any platform, restores GIE and returns to the caller. Registers with no
specified value after the return keep theirs (log 13). `exec` does not ask whether its agent is enabled (log 15). -/
def Obligations.ArmWriteSteps : Prop :=
  ∀ (count : Word) (s : State),
    (s.sPhase = .s5 → s.cfg.legal = true → s.cfg.admits ⟨s.cfg.addrMtimecmpLo, 4, .write⟩ = true →
      exec (.arm count) s = .next { s with mtimecmp := join (hi32 s.mtimecmp) 0xFFFFFFFF, sPhase := .s6 }) ∧
    (s.sPhase = .s6 → s.cfg.legal = true → s.cfg.admits ⟨s.cfg.addrMtimecmpHi, 4, .write⟩ = true →
      exec (.arm count) s = .next { s with mtimecmp := join (hi32 s.sFin) (lo32 s.mtimecmp), sPhase := .s7 }) ∧
    (s.sPhase = .s7 → s.cfg.legal = true → s.cfg.admits ⟨s.cfg.addrMtimecmpLo, 4, .write⟩ = true →
      exec (.arm count) s = .next { s with mtimecmp := join (hi32 s.mtimecmp) (lo32 s.sFin), sPhase := .s8 }) ∧
    (s.sPhase = .s8 → s.sCaller = .fg → exec (.arm count) s =
      .next { s with gie := s.sSaved, sPhase := .off, fgPhase := .aAtt }) ∧
    (s.sPhase = .s8 → s.sCaller = .bg → exec (.arm count) s =
      .next { s with gie := s.sSaved, sPhase := .off, bgPhase := .tx })

/-- R107, R103 to R105: S5 leaves the comparator {its high half, 0xFFFFFFFF}, S6 {S_FIN's high half, 0xFFFFFFFF}, S7
S_FIN. The first is at least OLD and the second at least S_FIN, so a MATCH in between means that the old or the new
deadline is reached. `exec` does not ask whether its agent is enabled (log 15). -/
def Obligations.ArmTransients : Prop :=
  ∀ (count : Word) (s : State), s.cfg.legal = true → s.cfg.admits ⟨s.cfg.addrMtimecmpLo, 4, .write⟩ = true →
    s.cfg.admits ⟨s.cfg.addrMtimecmpHi, 4, .write⟩ = true → s.sPhase = .s5 →
    ∃ a b c, exec (.arm count) s = .next a ∧ exec (.arm count) a = .next b ∧ exec (.arm count) b = .next c ∧
      a.mtimecmp = join (hi32 s.mtimecmp) 0xFFFFFFFF ∧ s.mtimecmp.toNat ≤ a.mtimecmp.toNat ∧
      b.mtimecmp = join (hi32 s.sFin) 0xFFFFFFFF ∧ s.sFin.toNat ≤ b.mtimecmp.toNat ∧
      c.mtimecmp = s.sFin ∧
      (a.matchNow = true ∨ b.matchNow = true ∨ c.matchNow = true →
        min s.mtimecmp.toNat s.sFin.toNat ≤ s.mtime.toNat)

/-- R100 to R102, R140: `k` counter steps between S2 and S3, in START's scheduler run or in TICK's: the low half is
the one before them and the high half the one after, with no re-read; where they carry from 0xFFFFFFFF the composed
time is {h+1, 0xFFFFFFFF}. The agents' order is given in `schedule` (log 1). REFUSED may be set (log 10). -/
def Obligations.TornRead : Prop :=
  ∀ (k : Nat) (s : State) (a : Agent) (rest : List Agent),
    s.cfg.legal = true → s.cfg.admits ⟨s.cfg.addrMtimeLo, 4, .read⟩ = true →
    s.cfg.admits ⟨s.cfg.addrMtimeHi, 4, .read⟩ = true → s.fault = none →
    ((a = .foreground ∧ s.bgPhase = .none ∧ s.fgPhase = .aArm) ∨ (a = .background ∧ s.bgPhase = .tArm)) →
    s.sPhase = .s2 →
    s.schedule = a :: List.replicate k .counter ++ [a, a] ++ rest →
    ∃ t, Host.Core.run core (k + 3) s = .next t ∧
      t.mtime = s.mtime + BitVec.ofNat 64 k ∧ t.sLo = lo32 s.mtime ∧ t.sHi = hi32 t.mtime ∧
      t.sFin = join (hi32 t.mtime) (lo32 s.mtime) + s.sCount.setWidth 64 ∧
      (k = 1 → lo32 s.mtime = 0xFFFFFFFF →
        t.sFin = join (hi32 s.mtime + 1) 0xFFFFFFFF + s.sCount.setWidth 64) ∧
      t.mtimecmp = s.mtimecmp ∧ t.gie = s.gie ∧ t.sPhase = .s5

/-! ## The whole machine (R128 to R130) -/

/-- R38, R94, R99, R108, R118: every step, of any agent, with any choice and any draw, keeps the invariant. The
invariant names the model's `opRate` (log 6), the call of the scheduler as a step of its own (log 8), and the list of
reasons (log 11). Steps of a faulted state and after a refusal are included (logs 9, 10). -/
def Obligations.StepKeepsInv : Prop :=
  ∀ s t : State, s.Inv → step s = .next t → t.Inv

/-- R128, R130: in a legal configuration a step always answers a next state, in every state. A choice that is not
enabled is passed over (log 1), a fault or refusal is a next state (logs 9, 10). -/
def Obligations.StepAnswersNext : Prop :=
  ∀ s : State, s.cfg.legal = true → ∃ t, step s = .next t

/-- R128: a step of the host runs the instruction its command word decodes to, after taking the command and the turn,
and R113's latch follows; a line of assembler text is the word it assembles to (log 25). The agents' order is given in
`schedule` (log 1), the host's commands in `hostQueue` (log 2). The issue is a step of its own (log 7), and the host
goes on after a refusal (log 10). -/
def Obligations.StepRunsHostWord : Prop :=
  ∀ (s : State) (x : HostInput) (w : Cmd) (q : List HostInput) (rest : List Agent) (i : Instr),
    s.cfg.legal = true → s.fault = none → s.fgPhase = .idle → s.bgPhase = .none →
    s.hostQueue = x :: q → s.schedule = .host :: rest →
    (x = .word w ∨ ∃ l, x = .line l ∧ assemble l = .ok w) → decode .host w = .ok i →
    step s =
      match exec i { s with hostQueue := q, schedule := rest } with
      | .next t => .next { t with pending := t.pending || (!s.matchNow && t.matchNow) }
      | .fault f => .fault f
      | .refused e => .refused e

/-- R70, R68: a step of the host that issues a word the decoder refuses, or a line the assembler refuses, sets
REFUSED, records the reason, and changes no register. Every reason is kept, oldest first (log 11); a line is assembled
when it is issued (log 25). The agents' order is given in `schedule` (log 1), the host's commands in `hostQueue` (log
2). The host goes on after a refusal (log 10). -/
def Obligations.StepRefusesHostWord : Prop :=
  ∀ (s : State) (x : HostInput) (q : List HostInput) (rest : List Agent) (reason : RefuseReason),
    s.cfg.legal = true → s.fault = none → s.fgPhase = .idle → s.bgPhase = .none →
    s.hostQueue = x :: q → s.schedule = .host :: rest →
    ((∃ w, (x = .word w ∨ ∃ l, x = .line l ∧ assemble l = .ok w) ∧ decode .host w = .error reason) ∨
      (∃ l, x = .line l ∧ assemble l = .error reason)) →
    step s = .next { s with
      hostQueue := q, schedule := rest, refused := true, refusalLog := s.refusalLog ++ [reason] }

/-- R38, R128: a foreground step runs the command of FG_PHASE with its operands, or the scheduler's step for START; a
background step runs TICK, or the scheduler's step for TICK; a delivery runs TICK's entry. The agents' order is given
in `schedule` (log 1). The operands are kept in the model's own fields `opValue`, `opRate` and `opDp` (log 6). The
call of the scheduler is a step of its own (log 8). These steps go on after a refusal (log 10). -/
def Obligations.StepRunsPhase : Prop :=
  ∀ (s u : State) (rest : List Agent) (a : Agent) (i : Instr),
    s.cfg.legal = true → s.schedule = a :: rest → u = { s with schedule := rest } →
    ((a = .foreground ∧ s.fault = none ∧ s.bgPhase = .none ∧
        ((i = .reset s.opValue s.opRate s.opDp ∧
            (s.fgPhase = .rs1 ∨ s.fgPhase = .rs2 ∨ s.fgPhase = .rs3 ∨ s.fgPhase = .rs4)) ∨
          (i = .setval s.opValue s.opDp ∧ (s.fgPhase = .v1 ∨ s.fgPhase = .v2)) ∨
          (i = .start ∧ (s.fgPhase = .aAtt ∨ (s.fgPhase = .aArm ∧ s.sPhase = .off))) ∨
          (i = .arm s.refreshTicks ∧ s.fgPhase = .aArm ∧ s.sPhase ≠ .off) ∨
          (i = .stop ∧ s.fgPhase = .sp1))) ∨
      (a = .background ∧ s.fault = none ∧
        ((i = .tick ∧ (s.bgPhase = .t1 ∨ s.bgPhase = .t2 ∨ s.bgPhase = .t3 ∨ s.bgPhase = .tx ∨
            (s.bgPhase = .tArm ∧ s.sPhase = .off))) ∨
          (i = .arm s.refreshTicks ∧ s.bgPhase = .tArm ∧ s.sPhase ≠ .off))) ∨
      (a = .deliver ∧ i = .tick ∧ s.deliveryEnabled = true)) →
    step s =
      match exec i u with
      | .next t => .next { t with pending := t.pending || (!s.matchNow && t.matchNow) }
      | .fault f => .fault f
      | .refused e => .refused e

/-- R72, R73, R111, R115, R128: which host, foreground, background and drop steps are enabled; a choice that is not is
passed over (log 1). A faulted state has such steps (log 9), and a refusal disables nothing (log 10). -/
def Obligations.NotEnabledPassedOver : Prop :=
  ∀ (s : State) (a : Agent) (rest : List Agent), s.cfg.legal = true → s.schedule = a :: rest →
    ((a = .host ∧ ¬(s.fault = none ∧ s.fgPhase = .idle ∧ s.bgPhase = .none)) ∨
      (a = .foreground ∧ ¬(s.fault = none ∧ s.fgPhase ≠ .idle ∧ s.bgPhase = .none)) ∨
      (a = .background ∧ ¬(s.fault = none ∧ s.bgPhase ≠ .none)) ∨
      (a = .drop ∧ ¬(s.fault = none ∧ s.attached = false ∧ s.pending = true))) →
    step s = .next { s with schedule := rest }

/-- R109, R74: from a faulted state only the counter moves, and nothing of the block changes: MTIME stays or goes on
by 1, and PENDING changes by the latch of R113 alone. A faulted state still has steps (log 9) and the latch of R113
goes on (log 17). The turn and the draws are the model's `schedule` and `draws` (log 1). -/
def Obligations.FaultedIsQuiescent : Prop :=
  ∀ s t : State, s.fault ≠ none → step s = .next t →
    t = { s with mtime := t.mtime, pending := t.pending, schedule := t.schedule, draws := t.draws } ∧
    (t.mtime = s.mtime ∨ t.mtime = s.mtime + 1) ∧
    t.pending = (s.pending || (!s.matchNow && t.matchNow))

/-- R40, R109, R70, R133: FAULT with its record and REFUSED are never cleared, no recorded reason is lost, and no step
changes a parameter. The reasons are kept in a list (log 11). A fault and a refusal are next states, from which the
run goes on (logs 9, 10). -/
def Obligations.MarksAreSticky : Prop :=
  ∀ s t : State, step s = .next t →
    (∀ f, s.fault = some f → t.fault = some f) ∧
    (s.refused = true → t.refused = true) ∧
    (∃ more, t.refusalLog = s.refusalLog ++ more) ∧
    t.cfg = s.cfg

/-- R19 to R23, R121, R138: only the foreground's own steps write VALUE, DP_MASK, REFRESH_TICKS and ATTACHED; INDEX is
written by T3 and by RESET's RS3 alone, and how. The operands a step writes are the model's own fields `opValue`,
`opDp` and `opRate` (log 6). -/
def Obligations.DisplayOwnership : Prop :=
  ∀ s t : State, step s = .next t →
    (t.value ≠ s.value → s.bgPhase = .none ∧ (s.fgPhase = .rs1 ∨ s.fgPhase = .v1) ∧ t.value = s.opValue) ∧
    (t.dpMask ≠ s.dpMask → s.bgPhase = .none ∧ (s.fgPhase = .rs2 ∨ s.fgPhase = .v2) ∧ t.dpMask = s.opDp) ∧
    (t.index ≠ s.index →
      (s.bgPhase = .none ∧ s.fgPhase = .rs3 ∧ t.index = 0) ∨ (s.bgPhase = .t3 ∧ t.index = s.index + 1)) ∧
    (t.refreshTicks ≠ s.refreshTicks → s.bgPhase = .none ∧ s.fgPhase = .rs4 ∧
      t.refreshTicks = s.cfg.timerResolution / s.opRate) ∧
    (t.attached ≠ s.attached → s.bgPhase = .none ∧
      ((s.fgPhase = .aAtt ∧ t.attached = true) ∨ (s.fgPhase = .sp1 ∧ t.attached = false)))

/-- R34, R35, R121: only TICK's T1 writes GPIO_DIGIT and only its T2 writes GPIO_SEG, and what they write. -/
def Obligations.PortOwnership : Prop :=
  ∀ s t : State, step s = .next t →
    (t.gpioDigit ≠ s.gpioDigit → s.bgPhase = .t1 ∧ t.gpioDigit = oneHot s.index) ∧
    (t.gpioSeg ≠ s.gpioSeg → s.bgPhase = .t2 ∧ t.gpioSeg = segByte s.value s.dpMask s.index)

/-- R31 to R33, R53, R136: MTIME changes by the counter's step alone, which adds 1 to it, leaves PENDING to the latch
of R113, takes its turn and changes nothing else; the comparator changes by S5, S6 and S7 alone, a half at a time with
the values of the write sequence. The turn and the draws are the model's `schedule` and `draws` (log 1). The counter's
step of a faulted state is included (logs 9, 17). -/
def Obligations.TimerOwnership : Prop :=
  ∀ s t : State, step s = .next t →
    (t.mtime ≠ s.mtime → t = { s with
      mtime := s.mtime + 1, pending := t.pending, schedule := t.schedule, draws := t.draws }) ∧
    (t.mtimecmp ≠ s.mtimecmp →
      (s.sPhase = .s5 ∧ t.mtimecmp = join (hi32 s.mtimecmp) 0xFFFFFFFF) ∨
      (s.sPhase = .s6 ∧ t.mtimecmp = join (hi32 s.sFin) (lo32 s.mtimecmp)) ∨
      (s.sPhase = .s7 ∧ t.mtimecmp = join (hi32 s.mtimecmp) (lo32 s.sFin)))

/-- R29, R130: GIE changes at S1, S8, interrupt entry and interrupt return alone. -/
def Obligations.GieOwnership : Prop :=
  ∀ s t : State, step s = .next t → t.gie ≠ s.gie →
    (s.sPhase = .s1 ∧ t.sPhase = .s2 ∧ t.gie = false ∧ t.sSaved = s.gie) ∨
    (s.sPhase = .s8 ∧ t.sPhase = .off ∧ t.gie = s.sSaved) ∨
    (s.bgPhase = .none ∧ t.bgPhase = .t1 ∧ t.gie = false ∧ t.irqSavedGie = s.gie) ∨
    (s.bgPhase = .tx ∧ t.bgPhase = .none ∧ t.gie = s.irqSavedGie)

/-! ## Runs the hazards describe (70_reset_and_hazards.md) -/

/-- R86, R147, C4: a TICK between V1 and V2 of SETVAL renders the new VALUE with the old DP_MASK, and then V2
completes. The operands are the model's fields `opValue` and `opDp` (log 6). The agents' order is given in `schedule`
(log 1). The 16 steps count TICK's call of the scheduler (log 8). REFUSED may be set (log 10). -/
def Obligations.SetvalMixedTick : Prop :=
  ∀ (s : State) (rest : List Agent),
    s.cfg.legal = true → s.cfg.admitsSix = true → s.fault = none → s.fgPhase = .v1 →
    s.bgPhase = .none → s.sPhase = .off → s.pending = true → s.gie = true → (s.attached = true ∨ s.late = true) →
    s.schedule = .foreground :: tickAgents ++ .foreground :: rest →
    ∃ t, Host.Core.run core 16 s = .next t ∧
      t.value = s.opValue ∧ t.dpMask = s.opDp ∧ t.fgPhase = .idle ∧
      t.gpioDigit = oneHot s.index ∧ t.gpioSeg = segByte s.opValue s.dpMask s.index ∧
      t.index = s.index + 1 ∧ t.schedule = rest

/-- R86, R77: a TICK between RS3 and RS4 of RESET renders digit 0, arms with the old REFRESH_TICKS and leaves INDEX at
1; then RS4 writes the new interval. The rate is the model's field `opRate` (log 6). The agents' order is given in
`schedule` (log 1). The 16 steps count TICK's call of the scheduler (log 8). REFUSED may be set (log 10). -/
def Obligations.ResetMixedTick : Prop :=
  ∀ (s : State) (rest : List Agent),
    s.cfg.legal = true → s.cfg.admitsSix = true → s.fault = none → s.fgPhase = .rs3 →
    s.bgPhase = .none → s.sPhase = .off → s.pending = true → s.gie = true → (s.attached = true ∨ s.late = true) →
    s.schedule = .foreground :: tickAgents ++ .foreground :: rest →
    ∃ t, Host.Core.run core 16 s = .next t ∧
      t.gpioDigit = 0x01 ∧ t.gpioSeg = segByte s.value s.dpMask 0 ∧ t.index = 1 ∧
      t.mtimecmp = s.mtime + s.refreshTicks.setWidth 64 ∧
      t.refreshTicks = s.cfg.timerResolution / s.opRate ∧ t.fgPhase = .idle

/-- R142, R95: with REFRESH_TICKS = 0 and no carry at bit 32, TICKs run back to back without end, the counter standing
still: after any number `n` of them INDEX is advanced by `n` modulo 4 and a delivery is enabled again. The agents'
order is given in `schedule` (log 1). The 14 steps of each TICK count its call of the scheduler (log 8). REFUSED may
be set (log 10). -/
def Obligations.ZeroIntervalBackToBack : Prop :=
  ∀ (n : Nat) (s : State) (rest : List Agent),
    s.cfg.legal = true → s.cfg.admitsSix = true → s.deliveryEnabled = true → s.attached = true →
    s.refreshTicks = 0 → lo32 s.mtime ≠ 0xFFFFFFFF →
    s.schedule = (List.replicate n tickAgents).flatten ++ rest →
    ∃ t, Host.Core.run core (14 * n) s = .next t ∧
      t.deliveryEnabled = true ∧ t.index = s.index + BitVec.ofNat 2 n ∧
      t.value = s.value ∧ t.dpMask = s.dpMask ∧ t.mtime = s.mtime ∧ t.fgPhase = s.fgPhase ∧ t.schedule = rest ∧
      (n ≠ 0 → t.mtimecmp = s.mtime ∧ t.gpioDigit = oneHot (t.index - 1) ∧
        t.gpioSeg = segByte s.value s.dpMask (t.index - 1))

/-- R113, R115, R143, R145: an edge while nothing is attached stays in PENDING unless dropped: START leaves it there,
so that where GIE is 1 a delivery is enabled at once after its attach step; taken there, it starts a TICK with MTIME
where it was and START's own deadline still in the comparator. The agents' order is given in `schedule` (log 1), the
host's commands in `hostQueue` (log 2); the 11 steps of START count its issue and its call (logs 7, 8). REFUSED may be
set (log 10). -/
def Obligations.StaleEdgeDeliveredAfterStart : Prop :=
  ∀ (s : State) (q : List HostInput) (rest : List Agent),
    s.cfg.legal = true → s.cfg.admitsScheduler = true → s.fault = none → s.attached = false →
    s.fgPhase = .idle → s.bgPhase = .none → s.sPhase = .off → s.pending = true → s.gie = true →
    s.hostQueue = .word (encode .start) :: q →
    s.schedule = .host :: List.replicate 10 .foreground ++ .deliver :: rest →
    ∃ t u, Host.Core.run core 11 s = .next t ∧ t.pending = true ∧ t.deliveryEnabled = true ∧
      t.mtimecmp = s.mtime + s.refreshTicks.setWidth 64 ∧
      step t = .next u ∧ u.bgPhase = .t1 ∧ u.pending = false ∧ u.mtime = s.mtime ∧ u.mtimecmp = t.mtimecmp

/-- R141, R148, R113: the writes S5, S6 and S7 of START's scheduler run or of TICK's, with MTIME, MTIMECMP and S_FIN
at any value, so with the deadline passed or wrapped. The three writes set PENDING where they make an edge: with MATCH
0 after S6 and the deadline reached, S7 makes it; where MTIME's high half has passed both the old and the new high
half, MATCH stays 1 and there is none; where the sentinel drops MATCH and the deadline has wrapped below MTIME's high
half, S6 makes it. And S7 alone, wherever the counter has moved before it, makes the edge where MATCH was 0 just
before it and the deadline is reached. The agents' order is given in `schedule` (log 1). REFUSED may be set (log 10).
-/
def Obligations.DeadlinePassedDuringRun : Prop :=
  ∀ (s : State) (a : Agent) (rest : List Agent),
    s.cfg.legal = true → s.cfg.admits ⟨s.cfg.addrMtimecmpLo, 4, .write⟩ = true → s.fault = none →
    ((a = .foreground ∧ s.bgPhase = .none ∧ s.fgPhase = .aArm) ∨ (a = .background ∧ s.bgPhase = .tArm)) →
    (s.sPhase = .s5 → s.cfg.admits ⟨s.cfg.addrMtimecmpHi, 4, .write⟩ = true →
      s.schedule = a :: a :: a :: rest →
      ∃ t, Host.Core.run core 3 s = .next t ∧
        t = { s with
          mtimecmp := s.sFin, pending := s.pending || armEdge s.mtime s.mtimecmp s.sFin, sPhase := .s8
          schedule := rest } ∧
        (matchOf s.mtime (join (hi32 s.sFin) 0xFFFFFFFF) = false → s.sFin.toNat ≤ s.mtime.toNat →
          t.pending = true) ∧
        (s.mtimecmp.toNat ≤ s.mtime.toNat → (hi32 s.mtimecmp).toNat < (hi32 s.mtime).toNat →
          (hi32 s.sFin).toNat < (hi32 s.mtime).toNat → t.pending = s.pending ∧ t.matchNow = true) ∧
        (matchOf s.mtime (join (hi32 s.mtimecmp) 0xFFFFFFFF) = false →
          (hi32 s.sFin).toNat < (hi32 s.mtime).toNat → t.pending = true)) ∧
    (s.sPhase = .s7 → s.schedule = a :: rest → s.mtimecmp = join (hi32 s.sFin) 0xFFFFFFFF →
      s.matchNow = false → s.sFin.toNat ≤ s.mtime.toNat →
      step s = .next { s with mtimecmp := s.sFin, pending := true, sPhase := .s8, schedule := rest })
end

