-- ==== Sys2Proof/Laws/Operands.lean ====
section
/-! SUPPORT. The halves of a 64-bit quantity, the index, the digit select and the segment byte. -/

namespace Sys2Proof.Machine

@[simp] theorem lo32_join (hi lo : Word) : lo32 (join hi lo) = lo := by
  ext i h
  simp [lo32, join, show i < 64 by omega, h]

@[simp] theorem hi32_join (hi lo : Word) : hi32 (join hi lo) = hi := by
  ext i h
  simp [hi32, join, BitVec.getLsbD_eq_getElem h, show 32 + i < 64 by omega]

@[simp] theorem join_halves (v : DWord) : join (hi32 v) (lo32 v) = v := by
  ext i h
  by_cases hi : i < 32
  · simp [join, lo32, hi32, hi, BitVec.getLsbD_eq_getElem h]
  · simp [join, lo32, hi32, hi, Nat.add_sub_cancel' (not_lt.1 hi), BitVec.getLsbD_eq_getElem h,
      show i - 32 < 32 by omega]

@[simp] theorem lo32_withLo (v : DWord) (lo : Word) : lo32 (withLo v lo) = lo := by simp [withLo]
@[simp] theorem hi32_withLo (v : DWord) (lo : Word) : hi32 (withLo v lo) = hi32 v := by simp [withLo]
@[simp] theorem lo32_withHi (v : DWord) (hi : Word) : lo32 (withHi v hi) = lo32 v := by simp [withHi]
@[simp] theorem hi32_withHi (v : DWord) (hi : Word) : hi32 (withHi v hi) = hi := by simp [withHi]

/-- Replacing both halves leaves nothing of the old value. -/
theorem withLo_withHi (v w : DWord) : withLo (withHi v (hi32 w)) (lo32 w) = w := by simp [withLo]

theorem toNat_join (hi lo : Word) : (join hi lo).toNat = hi.toNat * 2 ^ 32 + lo.toNat := by
  have h : hi.toNat <<< 32 % 2 ^ 64 = hi.toNat <<< 32 := by
    rw [Nat.shiftLeft_eq]; exact Nat.mod_eq_of_lt (by have := hi.isLt; omega)
  have hl : lo.toNat < 2 ^ 64 := by have := lo.isLt; omega
  have hh : hi.toNat < 2 ^ 64 := by have := hi.isLt; omega
  simp only [join, BitVec.toNat_or, BitVec.toNat_shiftLeft, BitVec.toNat_setWidth, Nat.mod_eq_of_lt hl,
    Nat.mod_eq_of_lt hh, h]
  rw [← Nat.shiftLeft_add_eq_or_of_lt lo.isLt, Nat.shiftLeft_eq]

@[simp] theorem nextIndex_sub_one (i : BitVec 2) : nextIndex i - 1#2 = i := by simp [nextIndex]

/-- Bit 7 of every entry of the table is 0 (R25). -/
theorem segRom_bit7 : ∀ t : BitVec 4, (segRom t).getLsbD 7 = false := by decide

/-- Exactly one of the low four bits, none of the high four (R88). -/
theorem oneHot_getLsbD : ∀ (i : BitVec 2) (k : Fin 8), (oneHot i).getLsbD k = decide ((k : Nat) = i.toNat) := by
  decide

end Sys2Proof.Machine
end

