-- ==== Sys2Proof/Laws/Bus.lean ====
section
/-! SUPPORT. The bus in a legal configuration: each access of R46 reaches its own register. -/

namespace Sys2Proof.Machine

/-- What legality says of the six ranges. -/
theorem Config.legal_iff (c : Config) : c.legal = true ↔
    (Config.allDisjoint c.sixAccesses = true ∧ c.addrMtimeLo % 4 = 0 ∧ c.addrMtimeHi % 4 = 0 ∧
      c.addrMtimecmpLo % 4 = 0 ∧ c.addrMtimecmpHi % 4 = 0) ∧ c.timerResolution ≠ 0 := by
  simp [Config.legal, and_assoc]

theorem busRegAt_access {c : Config} (h : c.legal = true) (r : BusReg) : busRegAt c (r.access c) = some r := by
  obtain ⟨⟨hd, -⟩, -⟩ := (Config.legal_iff c).1 h
  simp only [Config.allDisjoint, Config.sixAccesses, Config.disjoint, List.all_cons, List.all_nil, Bool.and_true,
    Bool.and_eq_true, Bool.or_eq_true, decide_eq_true_eq] at hd
  have h1 : c.addrDigit ≠ c.addrSeg := by omega
  have h2 : c.addrMtimeLo ≠ c.addrMtimeHi := by omega
  have h3 : c.addrMtimecmpLo ≠ c.addrMtimecmpHi := by omega
  cases r <;> simp [busRegAt, BusReg.access, beq_eq_decide, h1, h2, h3]

theorem admits_access {c : Config} (h : c.admitsSix = true) (r : BusReg) : c.admits (r.access c) = true := by
  simp only [Config.admitsSix, Config.sixAccesses, List.all_cons, List.all_nil, Bool.and_true, Bool.and_eq_true] at h
  obtain ⟨h1, h2, h3, h4, h5, h6⟩ := h
  cases r <;> assumption

/-- What a scheduler run needs of the platform, access by access. -/
theorem admitsScheduler_iff (c : Config) : c.admitsScheduler = true ↔
    c.admits ⟨c.addrMtimeLo, 4, .read⟩ = true ∧ c.admits ⟨c.addrMtimeHi, 4, .read⟩ = true ∧
      c.admits ⟨c.addrMtimecmpLo, 4, .write⟩ = true ∧ c.admits ⟨c.addrMtimecmpHi, 4, .write⟩ = true := by
  simp [Config.admitsScheduler, Config.schedulerAccesses]

theorem admitsScheduler_of_admitsSix {c : Config} (h : c.admitsSix = true) : c.admitsScheduler = true :=
  (admitsScheduler_iff c).2 ⟨admits_access h .mtimeLo, admits_access h .mtimeHi, admits_access h .mtimecmpLo,
    admits_access h .mtimecmpHi⟩

variable {s : State}

theorem memRead_mtimeLo (h : s.cfg.legal = true) :
    memRead s s.cfg.addrMtimeLo = if s.cfg.admits ⟨s.cfg.addrMtimeLo, 4, .read⟩ then some (lo32 s.mtime) else none := by
  have := busRegAt_access h .mtimeLo
  simp only [BusReg.access] at this
  simp [memRead, this]

theorem memRead_mtimeHi (h : s.cfg.legal = true) :
    memRead s s.cfg.addrMtimeHi = if s.cfg.admits ⟨s.cfg.addrMtimeHi, 4, .read⟩ then some (hi32 s.mtime) else none := by
  have := busRegAt_access h .mtimeHi
  simp only [BusReg.access] at this
  simp [memRead, this]

theorem memWrite_gpioDigit (h : s.cfg.legal = true) (b : Byte) :
    memWrite s s.cfg.addrDigit (.byte b) =
      if s.cfg.admits ⟨s.cfg.addrDigit, 1, .write⟩ then some { s with gpioDigit := b } else none := by
  have := busRegAt_access h .gpioDigit
  simp only [BusReg.access] at this
  simp [memWrite, BusData.width, this]

theorem memWrite_gpioSeg (h : s.cfg.legal = true) (b : Byte) :
    memWrite s s.cfg.addrSeg (.byte b) =
      if s.cfg.admits ⟨s.cfg.addrSeg, 1, .write⟩ then some { s with gpioSeg := b } else none := by
  have := busRegAt_access h .gpioSeg
  simp only [BusReg.access] at this
  simp [memWrite, BusData.width, this]

theorem memWrite_mtimecmpLo (h : s.cfg.legal = true) (w : Word) :
    memWrite s s.cfg.addrMtimecmpLo (.word w) =
      if s.cfg.admits ⟨s.cfg.addrMtimecmpLo, 4, .write⟩ then some { s with mtimecmp := withLo s.mtimecmp w }
      else none := by
  have := busRegAt_access h .mtimecmpLo
  simp only [BusReg.access] at this
  simp [memWrite, BusData.width, this]

theorem memWrite_mtimecmpHi (h : s.cfg.legal = true) (w : Word) :
    memWrite s s.cfg.addrMtimecmpHi (.word w) =
      if s.cfg.admits ⟨s.cfg.addrMtimecmpHi, 4, .write⟩ then some { s with mtimecmp := withHi s.mtimecmp w }
      else none := by
  have := busRegAt_access h .mtimecmpHi
  simp only [BusReg.access] at this
  simp [memWrite, BusData.width, this]

/-- A reading step goes on or raises `BUS_FAULT`; it never stops. -/
theorem readThen_cases (s : State) (step : BusStep) (addr : Nat) (k : Word → State) :
    (∃ w, memRead s addr = some w ∧ readThen s step addr k = .next (k w)) ∨
    (memRead s addr = none ∧
      readThen s step addr k = .next (s.recordFault .busFault (.access ⟨addr, 4, .read⟩ step))) := by
  cases h : memRead s addr <;> simp [readThen, h]

/-- A writing step goes on or raises `BUS_FAULT`; it never stops. -/
theorem writeThen_cases (s : State) (step : BusStep) (addr : Nat) (v : BusData) (k : State → State) :
    (∃ t, memWrite s addr v = some t ∧ writeThen s step addr v k = .next (k t)) ∨
    (memWrite s addr v = none ∧
      writeThen s step addr v k = .next (s.recordFault .busFault (.access ⟨addr, v.width, .write⟩ step))) := by
  cases h : memWrite s addr v <;> simp [writeThen, h]

end Sys2Proof.Machine
end

