-- ==== Sys2Proof/Laws/Decode.lean ====
section
/-! SUPPORT. The fields of a command word, and what a row's match and mask say of them (R60, R61, R63). -/

namespace Sys2Proof

/-- A word is the sum of its fields at their places. -/
theorem toNat_cmdOf (r : Word) (v : Half) (d : Byte) (op : BitVec 4) :
    (cmdOf r v d op).toNat = r.toNat * 2 ^ 28 + v.toNat * 2 ^ 12 + d.toNat * 2 ^ 4 + op.toNat := by
  have hr := r.isLt
  have hv := v.isLt
  have hd := d.isLt
  have ho := op.isLt
  have h1 : r.toNat * 2 ^ 28 ||| v.toNat * 2 ^ 12 = r.toNat * 2 ^ 28 + v.toNat * 2 ^ 12 := by
    rw [← Nat.shiftLeft_eq r.toNat, Nat.shiftLeft_add_eq_or_of_lt (by omega)]
  have h2 : r.toNat * 2 ^ 28 + v.toNat * 2 ^ 12 ||| d.toNat * 2 ^ 4 =
      r.toNat * 2 ^ 28 + v.toNat * 2 ^ 12 + d.toNat * 2 ^ 4 := by
    rw [show r.toNat * 2 ^ 28 + v.toNat * 2 ^ 12 = (r.toNat * 2 ^ 16 + v.toNat) <<< 12 by
      rw [Nat.shiftLeft_eq]; omega, Nat.shiftLeft_add_eq_or_of_lt (by omega)]
  have h3 : r.toNat * 2 ^ 28 + v.toNat * 2 ^ 12 + d.toNat * 2 ^ 4 ||| op.toNat =
      r.toNat * 2 ^ 28 + v.toNat * 2 ^ 12 + d.toNat * 2 ^ 4 + op.toNat := by
    rw [show r.toNat * 2 ^ 28 + v.toNat * 2 ^ 12 + d.toNat * 2 ^ 4 =
      (r.toNat * 2 ^ 24 + v.toNat * 2 ^ 8 + d.toNat) <<< 4 by
      rw [Nat.shiftLeft_eq]; omega, Nat.shiftLeft_add_eq_or_of_lt (by omega)]
  simp only [cmdOf, BitVec.toNat_or, BitVec.toNat_shiftLeft, BitVec.toNat_setWidth, Nat.shiftLeft_eq]
  rw [Nat.mod_eq_of_lt (a := r.toNat) (by omega), Nat.mod_eq_of_lt (a := v.toNat) (by omega),
    Nat.mod_eq_of_lt (a := d.toNat) (by omega), Nat.mod_eq_of_lt (a := op.toNat) (by omega),
    Nat.mod_eq_of_lt (a := r.toNat * _) (by omega), Nat.mod_eq_of_lt (a := v.toNat * _) (by omega),
    Nat.mod_eq_of_lt (a := d.toNat * _) (by omega), h1, h2, h3]

@[simp] theorem opField_cmdOf (r : Word) (v : Half) (d : Byte) (op : BitVec 4) : opField (cmdOf r v d op) = op := by
  have hr := r.isLt
  have hv := v.isLt
  have hd := d.isLt
  have ho := op.isLt
  apply BitVec.eq_of_toNat_eq
  simp [opField, BitVec.extractLsb'_toNat, toNat_cmdOf]
  omega

@[simp] theorem dpField_cmdOf (r : Word) (v : Half) (d : Byte) (op : BitVec 4) : dpField (cmdOf r v d op) = d := by
  have hr := r.isLt
  have hv := v.isLt
  have hd := d.isLt
  have ho := op.isLt
  apply BitVec.eq_of_toNat_eq
  simp [dpField, BitVec.extractLsb'_toNat, toNat_cmdOf, Nat.shiftRight_eq_div_pow]
  omega

@[simp] theorem valueField_cmdOf (r : Word) (v : Half) (d : Byte) (op : BitVec 4) :
    valueField (cmdOf r v d op) = v := by
  have hr := r.isLt
  have hv := v.isLt
  have hd := d.isLt
  have ho := op.isLt
  apply BitVec.eq_of_toNat_eq
  simp [valueField, BitVec.extractLsb'_toNat, toNat_cmdOf, Nat.shiftRight_eq_div_pow]
  omega

@[simp] theorem rateField_cmdOf (r : Word) (v : Half) (d : Byte) (op : BitVec 4) :
    rateField (cmdOf r v d op) = r := by
  have hr := r.isLt
  have hv := v.isLt
  have hd := d.isLt
  have ho := op.isLt
  apply BitVec.eq_of_toNat_eq
  simp [rateField, BitVec.extractLsb'_toNat, toNat_cmdOf, Nat.shiftRight_eq_div_pow]
  omega

@[simp] theorem rsv_cmdOf (r : Word) (v : Half) (d : Byte) (op : BitVec 4) :
    (cmdOf r v d op).extractLsb' 60 4 = 0#4 := by
  have hr := r.isLt
  have hv := v.isLt
  have hd := d.isLt
  have ho := op.isLt
  apply BitVec.eq_of_toNat_eq
  simp [BitVec.extractLsb'_toNat, toNat_cmdOf, Nat.shiftRight_eq_div_pow]
  omega

/-- A word whose rsv field is 0 is the word of its fields: no other bit exists (R60). -/
theorem cmdOf_fields {w : Cmd} (h : w.extractLsb' 60 4 = 0#4) :
    cmdOf (rateField w) (valueField w) (dpField w) (opField w) = w := by
  have h' := congrArg BitVec.toNat h
  have hw := w.isLt
  apply BitVec.eq_of_toNat_eq
  simp [toNat_cmdOf, rateField, valueField, dpField, opField, BitVec.extractLsb'_toNat,
    Nat.shiftRight_eq_div_pow] at h' ⊢
  omega

/-- The opcode of each row (R62). -/
theorem Row.opField_matchBits (r : Row) : opField r.matchBits =
    match r with
    | .reset => 1#4
    | .setval => 2#4
    | .start => 3#4
    | .stop => 4#4
    | .tick => 8#4
    | .arm => 9#4 := by
  cases r <;> rfl

/-- The row an opcode selects (R62). -/
theorem Row.ofOp_eq_some (op : BitVec 4) (r : Row) : Row.ofOp op = some r ↔ op = opField r.matchBits := by
  cases r <;> revert op <;> decide

theorem Row.ofOp_eq_none (op : BitVec 4) : Row.ofOp op = none ↔ op ∉ [1, 2, 3, 4, 8, 9] := by
  revert op
  decide

/-- Which bits a row's mask tests: op, rsv, and the fields its opcode reserves (R63, R65). -/
theorem Row.mask_bit (r : Row) (i : Fin 64) : r.mask.getLsbD i =
    (decide ((i : Nat) < 4) || decide (60 ≤ (i : Nat)) ||
      (decide (28 ≤ (i : Nat) ∧ (i : Nat) < 60) && (r != .reset && r != .arm)) ||
      (decide (4 ≤ (i : Nat) ∧ (i : Nat) < 28) && (r != .reset && r != .setval))) := by
  cases r <;> revert i <;> decide

/-- Above the opcode a row's match is 0 (R63). -/
theorem Row.match_bit (r : Row) (i : Fin 64) (h : 4 ≤ (i : Nat)) : r.matchBits.getLsbD i = false := by
  cases r <;> revert i <;> decide

/-- A word matches a row exactly when its opcode is the row's and the fields the opcode reserves are 0 (R63, R65). -/
theorem Row.matches_iff (w : Cmd) (r : Row) : w &&& r.mask = r.matchBits ↔
    opField w = opField r.matchBits ∧ w.extractLsb' 60 4 = 0#4 ∧
    (r ≠ .reset → r ≠ .arm → rateField w = 0#32) ∧
    (r ≠ .reset → r ≠ .setval → valueField w = 0#16 ∧ dpField w = 0#8) := by
  constructor
  · intro h
    have hb (i : Fin 64) : (w.getLsbD i && r.mask.getLsbD i) = r.matchBits.getLsbD i := by
      rw [← BitVec.getLsbD_and, h]
    refine ⟨?_, ?_, fun h1 h2 => ?_, fun h1 h2 => ⟨?_, ?_⟩⟩
    · ext i hi
      have := hb ⟨i, by omega⟩
      rw [Row.mask_bit] at this
      simp [hi] at this
      simp [opField, this]
    · ext i hi
      have := hb ⟨60 + i, by omega⟩
      rw [Row.match_bit _ _ (by simp; omega), Row.mask_bit] at this
      simpa using this
    · ext i hi
      have := hb ⟨28 + i, by omega⟩
      rw [Row.match_bit _ _ (by simp; omega), Row.mask_bit] at this
      simpa [h1, h2, show 28 + i < 60 by omega, rateField] using this
    · ext i hi
      have := hb ⟨12 + i, by omega⟩
      rw [Row.match_bit _ _ (by simp; omega), Row.mask_bit] at this
      simpa [h1, h2, show 12 + i < 28 by omega, show 4 ≤ 12 + i by omega, valueField] using this
    · ext i hi
      have := hb ⟨4 + i, by omega⟩
      rw [Row.match_bit _ _ (by simp), Row.mask_bit] at this
      simpa [h1, h2, show 4 + i < 28 by omega, dpField] using this
  · rintro ⟨h0, h1, h2, h3⟩
    have field {n k : Nat} {x : BitVec n} (hx : w.extractLsb' k n = x) {i : Nat} (hk : k ≤ i) (hi : i < k + n) :
        w.getLsbD i = x.getLsbD (i - k) := by
      rw [← hx, BitVec.getLsbD_extractLsb', Nat.add_sub_cancel' hk]
      simp [show i - k < n by omega]
    apply BitVec.eq_of_getLsbD_eq
    intro i hi
    rw [BitVec.getLsbD_and, Row.mask_bit r ⟨i, hi⟩]
    rcases Nat.lt_or_ge i 4 with h4 | h4
    · rw [field h0 (Nat.zero_le _) (by omega)]
      simp [opField, h4]
    · rw [Row.match_bit r ⟨i, hi⟩ h4]
      rcases Nat.lt_or_ge i 28 with h28 | h28
      · by_cases hr : r = .reset ∨ r = .setval
        · rcases hr with rfl | rfl <;> simp <;> omega
        · obtain ⟨hv, hd⟩ := h3 (fun h => hr (.inl h)) (fun h => hr (.inr h))
          rcases Nat.lt_or_ge i 12 with h12 | h12
          · simp [field hd h4 (by omega)]
          · simp [field hv h12 (by omega)]
      · rcases Nat.lt_or_ge i 60 with h60 | h60
        · by_cases hr : r = .reset ∨ r = .arm
          · rcases hr with rfl | rfl <;> simp <;> omega
          · simp [field (h2 (fun h => hr (.inl h)) (fun h => hr (.inr h))) h28 (by omega)]
        · simp [field h1 h60 (by omega)]

/-! ## What the host hands in -/

theorem HostInput.instr_word (w : Cmd) : (HostInput.word w).instr = decode .host w := rfl

theorem HostInput.instr_line {l : AsmLine} {w : Cmd} (h : assemble l = .ok w) :
    (HostInput.line l).instr = decode .host w := by
  simp [HostInput.instr, HostInput.command, h]

theorem HostInput.instr_line_refused {l : AsmLine} {reason : RefuseReason} (h : assemble l = .error reason) :
    (HostInput.line l).instr = .error reason := by
  simp [HostInput.instr, HostInput.command, h]

/-- The host never decodes an instruction of the block's own (R66). -/
theorem decode_host_wellFormed {w : Cmd} {i : Instr} (h : decode .host w = .ok i) : i.wellFormed .host = true := by
  unfold decode at h
  split at h
  · cases h
  · split at h
    · cases h
    · split at h
      · cases h; assumption
      · cases h

theorem HostInput.instr_wellFormed {x : HostInput} {i : Instr} (h : x.instr = .ok i) : i.wellFormed .host = true := by
  unfold HostInput.instr at h
  split at h
  · exact decode_host_wellFormed h
  · cases h

end Sys2Proof
end

