-- ==== Sys2Proof/Laws/PerInstr.lean ====
section
/-! SUPPORT. The family EncodeMatchesRow: the word of an instruction is selected by its row of R63, whatever its
operands. One lemma per constructor. -/

namespace Sys2Proof.Laws.EncodeMatchesRow

/-- "A word selects an operation when `(CMD & mask) == match`" (R63). -/
def Statement (i : Instr) : Prop := encode i &&& i.row.mask = i.row.matchBits

theorem reset (value : Half) (rate : Word) (dp : Byte) : Statement (.reset value rate dp) := by
  rw [Statement, Row.matches_iff]; simp [encode, Instr.row]; rfl

theorem setval (value : Half) (dp : Byte) : Statement (.setval value dp) := by
  rw [Statement, Row.matches_iff]; simp [encode, Instr.row]; rfl

theorem start : Statement .start := rfl

theorem stop : Statement .stop := rfl

theorem tick : Statement .tick := rfl

theorem arm (count : Word) : Statement (.arm count) := by
  rw [Statement, Row.matches_iff]; simp [encode, Instr.row]; rfl

end Sys2Proof.Laws.EncodeMatchesRow
end

