-- ==== Sys2Proof/Laws/State.lean ====
section
/-! SUPPORT. The named updates of State, field by field. -/

namespace Sys2Proof.Machine

variable (s : State)

/-! ## recordFault -/

@[simp] theorem State.recordFault_cfg (code : FaultCode) (info : FaultInfo) :
    (s.recordFault code info).cfg = s.cfg := rfl
@[simp] theorem State.recordFault_value (code : FaultCode) (info : FaultInfo) :
    (s.recordFault code info).value = s.value := rfl
@[simp] theorem State.recordFault_dpMask (code : FaultCode) (info : FaultInfo) :
    (s.recordFault code info).dpMask = s.dpMask := rfl
@[simp] theorem State.recordFault_index (code : FaultCode) (info : FaultInfo) :
    (s.recordFault code info).index = s.index := rfl
@[simp] theorem State.recordFault_refreshTicks (code : FaultCode) (info : FaultInfo) :
    (s.recordFault code info).refreshTicks = s.refreshTicks := rfl
@[simp] theorem State.recordFault_attached (code : FaultCode) (info : FaultInfo) :
    (s.recordFault code info).attached = s.attached := rfl
@[simp] theorem State.recordFault_late (code : FaultCode) (info : FaultInfo) :
    (s.recordFault code info).late = s.late := rfl
@[simp] theorem State.recordFault_pending (code : FaultCode) (info : FaultInfo) :
    (s.recordFault code info).pending = s.pending := rfl
@[simp] theorem State.recordFault_gie (code : FaultCode) (info : FaultInfo) :
    (s.recordFault code info).gie = s.gie := rfl
@[simp] theorem State.recordFault_irqSavedGie (code : FaultCode) (info : FaultInfo) :
    (s.recordFault code info).irqSavedGie = s.irqSavedGie := rfl
@[simp] theorem State.recordFault_mtime (code : FaultCode) (info : FaultInfo) :
    (s.recordFault code info).mtime = s.mtime := rfl
@[simp] theorem State.recordFault_mtimecmp (code : FaultCode) (info : FaultInfo) :
    (s.recordFault code info).mtimecmp = s.mtimecmp := rfl
@[simp] theorem State.recordFault_gpioDigit (code : FaultCode) (info : FaultInfo) :
    (s.recordFault code info).gpioDigit = s.gpioDigit := rfl
@[simp] theorem State.recordFault_gpioSeg (code : FaultCode) (info : FaultInfo) :
    (s.recordFault code info).gpioSeg = s.gpioSeg := rfl
@[simp] theorem State.recordFault_sCount (code : FaultCode) (info : FaultInfo) :
    (s.recordFault code info).sCount = s.sCount := rfl
@[simp] theorem State.recordFault_sLo (code : FaultCode) (info : FaultInfo) :
    (s.recordFault code info).sLo = s.sLo := rfl
@[simp] theorem State.recordFault_sHi (code : FaultCode) (info : FaultInfo) :
    (s.recordFault code info).sHi = s.sHi := rfl
@[simp] theorem State.recordFault_sFin (code : FaultCode) (info : FaultInfo) :
    (s.recordFault code info).sFin = s.sFin := rfl
@[simp] theorem State.recordFault_sSaved (code : FaultCode) (info : FaultInfo) :
    (s.recordFault code info).sSaved = s.sSaved := rfl
@[simp] theorem State.recordFault_fgPhase (code : FaultCode) (info : FaultInfo) :
    (s.recordFault code info).fgPhase = s.fgPhase := rfl
@[simp] theorem State.recordFault_bgPhase (code : FaultCode) (info : FaultInfo) :
    (s.recordFault code info).bgPhase = s.bgPhase := rfl
@[simp] theorem State.recordFault_sPhase (code : FaultCode) (info : FaultInfo) :
    (s.recordFault code info).sPhase = s.sPhase := rfl
@[simp] theorem State.recordFault_sCaller (code : FaultCode) (info : FaultInfo) :
    (s.recordFault code info).sCaller = s.sCaller := rfl
@[simp] theorem State.recordFault_fault (code : FaultCode) (info : FaultInfo) :
    (s.recordFault code info).fault = s.fault.or (some ⟨code, info⟩) := rfl
@[simp] theorem State.recordFault_refused (code : FaultCode) (info : FaultInfo) :
    (s.recordFault code info).refused = s.refused := rfl
@[simp] theorem State.recordFault_refusalLog (code : FaultCode) (info : FaultInfo) :
    (s.recordFault code info).refusalLog = s.refusalLog := rfl
@[simp] theorem State.recordFault_opValue (code : FaultCode) (info : FaultInfo) :
    (s.recordFault code info).opValue = s.opValue := rfl
@[simp] theorem State.recordFault_opRate (code : FaultCode) (info : FaultInfo) :
    (s.recordFault code info).opRate = s.opRate := rfl
@[simp] theorem State.recordFault_opDp (code : FaultCode) (info : FaultInfo) :
    (s.recordFault code info).opDp = s.opDp := rfl
@[simp] theorem State.recordFault_hostQueue (code : FaultCode) (info : FaultInfo) :
    (s.recordFault code info).hostQueue = s.hostQueue := rfl
@[simp] theorem State.recordFault_schedule (code : FaultCode) (info : FaultInfo) :
    (s.recordFault code info).schedule = s.schedule := rfl
@[simp] theorem State.recordFault_lateDraws (code : FaultCode) (info : FaultInfo) :
    (s.recordFault code info).lateDraws = s.lateDraws := rfl
@[simp] theorem State.recordFault_draws (code : FaultCode) (info : FaultInfo) :
    (s.recordFault code info).draws = s.draws := rfl

/-! ## recordRefusal -/

@[simp] theorem State.recordRefusal_cfg (reason : RefuseReason) : (s.recordRefusal reason).cfg = s.cfg := rfl
@[simp] theorem State.recordRefusal_value (reason : RefuseReason) :
    (s.recordRefusal reason).value = s.value := rfl
@[simp] theorem State.recordRefusal_dpMask (reason : RefuseReason) :
    (s.recordRefusal reason).dpMask = s.dpMask := rfl
@[simp] theorem State.recordRefusal_index (reason : RefuseReason) :
    (s.recordRefusal reason).index = s.index := rfl
@[simp] theorem State.recordRefusal_refreshTicks (reason : RefuseReason) :
    (s.recordRefusal reason).refreshTicks = s.refreshTicks := rfl
@[simp] theorem State.recordRefusal_attached (reason : RefuseReason) :
    (s.recordRefusal reason).attached = s.attached := rfl
@[simp] theorem State.recordRefusal_late (reason : RefuseReason) :
    (s.recordRefusal reason).late = s.late := rfl
@[simp] theorem State.recordRefusal_pending (reason : RefuseReason) :
    (s.recordRefusal reason).pending = s.pending := rfl
@[simp] theorem State.recordRefusal_gie (reason : RefuseReason) : (s.recordRefusal reason).gie = s.gie := rfl
@[simp] theorem State.recordRefusal_irqSavedGie (reason : RefuseReason) :
    (s.recordRefusal reason).irqSavedGie = s.irqSavedGie := rfl
@[simp] theorem State.recordRefusal_mtime (reason : RefuseReason) :
    (s.recordRefusal reason).mtime = s.mtime := rfl
@[simp] theorem State.recordRefusal_mtimecmp (reason : RefuseReason) :
    (s.recordRefusal reason).mtimecmp = s.mtimecmp := rfl
@[simp] theorem State.recordRefusal_gpioDigit (reason : RefuseReason) :
    (s.recordRefusal reason).gpioDigit = s.gpioDigit := rfl
@[simp] theorem State.recordRefusal_gpioSeg (reason : RefuseReason) :
    (s.recordRefusal reason).gpioSeg = s.gpioSeg := rfl
@[simp] theorem State.recordRefusal_sCount (reason : RefuseReason) :
    (s.recordRefusal reason).sCount = s.sCount := rfl
@[simp] theorem State.recordRefusal_sLo (reason : RefuseReason) : (s.recordRefusal reason).sLo = s.sLo := rfl
@[simp] theorem State.recordRefusal_sHi (reason : RefuseReason) : (s.recordRefusal reason).sHi = s.sHi := rfl
@[simp] theorem State.recordRefusal_sFin (reason : RefuseReason) :
    (s.recordRefusal reason).sFin = s.sFin := rfl
@[simp] theorem State.recordRefusal_sSaved (reason : RefuseReason) :
    (s.recordRefusal reason).sSaved = s.sSaved := rfl
@[simp] theorem State.recordRefusal_fgPhase (reason : RefuseReason) :
    (s.recordRefusal reason).fgPhase = s.fgPhase := rfl
@[simp] theorem State.recordRefusal_bgPhase (reason : RefuseReason) :
    (s.recordRefusal reason).bgPhase = s.bgPhase := rfl
@[simp] theorem State.recordRefusal_sPhase (reason : RefuseReason) :
    (s.recordRefusal reason).sPhase = s.sPhase := rfl
@[simp] theorem State.recordRefusal_sCaller (reason : RefuseReason) :
    (s.recordRefusal reason).sCaller = s.sCaller := rfl
@[simp] theorem State.recordRefusal_fault (reason : RefuseReason) :
    (s.recordRefusal reason).fault = s.fault := rfl
@[simp] theorem State.recordRefusal_refused (reason : RefuseReason) :
    (s.recordRefusal reason).refused = true := rfl
@[simp] theorem State.recordRefusal_refusalLog (reason : RefuseReason) :
    (s.recordRefusal reason).refusalLog = s.refusalLog ++ [reason] := rfl
@[simp] theorem State.recordRefusal_opValue (reason : RefuseReason) :
    (s.recordRefusal reason).opValue = s.opValue := rfl
@[simp] theorem State.recordRefusal_opRate (reason : RefuseReason) :
    (s.recordRefusal reason).opRate = s.opRate := rfl
@[simp] theorem State.recordRefusal_opDp (reason : RefuseReason) :
    (s.recordRefusal reason).opDp = s.opDp := rfl
@[simp] theorem State.recordRefusal_hostQueue (reason : RefuseReason) :
    (s.recordRefusal reason).hostQueue = s.hostQueue := rfl
@[simp] theorem State.recordRefusal_schedule (reason : RefuseReason) :
    (s.recordRefusal reason).schedule = s.schedule := rfl
@[simp] theorem State.recordRefusal_lateDraws (reason : RefuseReason) :
    (s.recordRefusal reason).lateDraws = s.lateDraws := rfl
@[simp] theorem State.recordRefusal_draws (reason : RefuseReason) :
    (s.recordRefusal reason).draws = s.draws := rfl

/-! ## latchEdge -/

@[simp] theorem State.latchEdge_cfg (t : State) : (s.latchEdge t).cfg = t.cfg := rfl
@[simp] theorem State.latchEdge_value (t : State) : (s.latchEdge t).value = t.value := rfl
@[simp] theorem State.latchEdge_dpMask (t : State) : (s.latchEdge t).dpMask = t.dpMask := rfl
@[simp] theorem State.latchEdge_index (t : State) : (s.latchEdge t).index = t.index := rfl
@[simp] theorem State.latchEdge_refreshTicks (t : State) :
    (s.latchEdge t).refreshTicks = t.refreshTicks := rfl
@[simp] theorem State.latchEdge_attached (t : State) : (s.latchEdge t).attached = t.attached := rfl
@[simp] theorem State.latchEdge_late (t : State) : (s.latchEdge t).late = t.late := rfl
@[simp] theorem State.latchEdge_pending (t : State) :
    (s.latchEdge t).pending = (t.pending || risingEdge s t) := rfl
@[simp] theorem State.latchEdge_gie (t : State) : (s.latchEdge t).gie = t.gie := rfl
@[simp] theorem State.latchEdge_irqSavedGie (t : State) : (s.latchEdge t).irqSavedGie = t.irqSavedGie := rfl
@[simp] theorem State.latchEdge_mtime (t : State) : (s.latchEdge t).mtime = t.mtime := rfl
@[simp] theorem State.latchEdge_mtimecmp (t : State) : (s.latchEdge t).mtimecmp = t.mtimecmp := rfl
@[simp] theorem State.latchEdge_gpioDigit (t : State) : (s.latchEdge t).gpioDigit = t.gpioDigit := rfl
@[simp] theorem State.latchEdge_gpioSeg (t : State) : (s.latchEdge t).gpioSeg = t.gpioSeg := rfl
@[simp] theorem State.latchEdge_sCount (t : State) : (s.latchEdge t).sCount = t.sCount := rfl
@[simp] theorem State.latchEdge_sLo (t : State) : (s.latchEdge t).sLo = t.sLo := rfl
@[simp] theorem State.latchEdge_sHi (t : State) : (s.latchEdge t).sHi = t.sHi := rfl
@[simp] theorem State.latchEdge_sFin (t : State) : (s.latchEdge t).sFin = t.sFin := rfl
@[simp] theorem State.latchEdge_sSaved (t : State) : (s.latchEdge t).sSaved = t.sSaved := rfl
@[simp] theorem State.latchEdge_fgPhase (t : State) : (s.latchEdge t).fgPhase = t.fgPhase := rfl
@[simp] theorem State.latchEdge_bgPhase (t : State) : (s.latchEdge t).bgPhase = t.bgPhase := rfl
@[simp] theorem State.latchEdge_sPhase (t : State) : (s.latchEdge t).sPhase = t.sPhase := rfl
@[simp] theorem State.latchEdge_sCaller (t : State) : (s.latchEdge t).sCaller = t.sCaller := rfl
@[simp] theorem State.latchEdge_fault (t : State) : (s.latchEdge t).fault = t.fault := rfl
@[simp] theorem State.latchEdge_refused (t : State) : (s.latchEdge t).refused = t.refused := rfl
@[simp] theorem State.latchEdge_refusalLog (t : State) : (s.latchEdge t).refusalLog = t.refusalLog := rfl
@[simp] theorem State.latchEdge_opValue (t : State) : (s.latchEdge t).opValue = t.opValue := rfl
@[simp] theorem State.latchEdge_opRate (t : State) : (s.latchEdge t).opRate = t.opRate := rfl
@[simp] theorem State.latchEdge_opDp (t : State) : (s.latchEdge t).opDp = t.opDp := rfl
@[simp] theorem State.latchEdge_hostQueue (t : State) : (s.latchEdge t).hostQueue = t.hostQueue := rfl
@[simp] theorem State.latchEdge_schedule (t : State) : (s.latchEdge t).schedule = t.schedule := rfl
@[simp] theorem State.latchEdge_lateDraws (t : State) : (s.latchEdge t).lateDraws = t.lateDraws := rfl
@[simp] theorem State.latchEdge_draws (t : State) : (s.latchEdge t).draws = t.draws := rfl

/-! ## interruptEntry -/

@[simp] theorem State.interruptEntry_cfg : (s.interruptEntry).cfg = s.cfg := rfl
@[simp] theorem State.interruptEntry_value : (s.interruptEntry).value = s.value := rfl
@[simp] theorem State.interruptEntry_dpMask : (s.interruptEntry).dpMask = s.dpMask := rfl
@[simp] theorem State.interruptEntry_index : (s.interruptEntry).index = s.index := rfl
@[simp] theorem State.interruptEntry_refreshTicks : (s.interruptEntry).refreshTicks = s.refreshTicks := rfl
@[simp] theorem State.interruptEntry_attached : (s.interruptEntry).attached = s.attached := rfl
@[simp] theorem State.interruptEntry_late : (s.interruptEntry).late = (s.attached && s.late) := rfl
@[simp] theorem State.interruptEntry_pending : (s.interruptEntry).pending = false := rfl
@[simp] theorem State.interruptEntry_gie : (s.interruptEntry).gie = false := rfl
@[simp] theorem State.interruptEntry_irqSavedGie : (s.interruptEntry).irqSavedGie = s.gie := rfl
@[simp] theorem State.interruptEntry_mtime : (s.interruptEntry).mtime = s.mtime := rfl
@[simp] theorem State.interruptEntry_mtimecmp : (s.interruptEntry).mtimecmp = s.mtimecmp := rfl
@[simp] theorem State.interruptEntry_gpioDigit : (s.interruptEntry).gpioDigit = s.gpioDigit := rfl
@[simp] theorem State.interruptEntry_gpioSeg : (s.interruptEntry).gpioSeg = s.gpioSeg := rfl
@[simp] theorem State.interruptEntry_sCount : (s.interruptEntry).sCount = s.sCount := rfl
@[simp] theorem State.interruptEntry_sLo : (s.interruptEntry).sLo = s.sLo := rfl
@[simp] theorem State.interruptEntry_sHi : (s.interruptEntry).sHi = s.sHi := rfl
@[simp] theorem State.interruptEntry_sFin : (s.interruptEntry).sFin = s.sFin := rfl
@[simp] theorem State.interruptEntry_sSaved : (s.interruptEntry).sSaved = s.sSaved := rfl
@[simp] theorem State.interruptEntry_fgPhase : (s.interruptEntry).fgPhase = s.fgPhase := rfl
@[simp] theorem State.interruptEntry_bgPhase : (s.interruptEntry).bgPhase = .t1 := rfl
@[simp] theorem State.interruptEntry_sPhase : (s.interruptEntry).sPhase = s.sPhase := rfl
@[simp] theorem State.interruptEntry_sCaller : (s.interruptEntry).sCaller = s.sCaller := rfl
@[simp] theorem State.interruptEntry_fault : (s.interruptEntry).fault = s.fault := rfl
@[simp] theorem State.interruptEntry_refused : (s.interruptEntry).refused = s.refused := rfl
@[simp] theorem State.interruptEntry_refusalLog : (s.interruptEntry).refusalLog = s.refusalLog := rfl
@[simp] theorem State.interruptEntry_opValue : (s.interruptEntry).opValue = s.opValue := rfl
@[simp] theorem State.interruptEntry_opRate : (s.interruptEntry).opRate = s.opRate := rfl
@[simp] theorem State.interruptEntry_opDp : (s.interruptEntry).opDp = s.opDp := rfl
@[simp] theorem State.interruptEntry_hostQueue : (s.interruptEntry).hostQueue = s.hostQueue := rfl
@[simp] theorem State.interruptEntry_schedule : (s.interruptEntry).schedule = s.schedule := rfl
@[simp] theorem State.interruptEntry_lateDraws : (s.interruptEntry).lateDraws = s.lateDraws := rfl
@[simp] theorem State.interruptEntry_draws : (s.interruptEntry).draws = s.draws := rfl

/-! ## interruptReturn -/

@[simp] theorem State.interruptReturn_cfg : (s.interruptReturn).cfg = s.cfg := rfl
@[simp] theorem State.interruptReturn_value : (s.interruptReturn).value = s.value := rfl
@[simp] theorem State.interruptReturn_dpMask : (s.interruptReturn).dpMask = s.dpMask := rfl
@[simp] theorem State.interruptReturn_index : (s.interruptReturn).index = s.index := rfl
@[simp] theorem State.interruptReturn_refreshTicks : (s.interruptReturn).refreshTicks = s.refreshTicks := rfl
@[simp] theorem State.interruptReturn_attached : (s.interruptReturn).attached = s.attached := rfl
@[simp] theorem State.interruptReturn_late : (s.interruptReturn).late = s.late := rfl
@[simp] theorem State.interruptReturn_pending : (s.interruptReturn).pending = s.pending := rfl
@[simp] theorem State.interruptReturn_gie : (s.interruptReturn).gie = s.irqSavedGie := rfl
@[simp] theorem State.interruptReturn_irqSavedGie : (s.interruptReturn).irqSavedGie = s.irqSavedGie := rfl
@[simp] theorem State.interruptReturn_mtime : (s.interruptReturn).mtime = s.mtime := rfl
@[simp] theorem State.interruptReturn_mtimecmp : (s.interruptReturn).mtimecmp = s.mtimecmp := rfl
@[simp] theorem State.interruptReturn_gpioDigit : (s.interruptReturn).gpioDigit = s.gpioDigit := rfl
@[simp] theorem State.interruptReturn_gpioSeg : (s.interruptReturn).gpioSeg = s.gpioSeg := rfl
@[simp] theorem State.interruptReturn_sCount : (s.interruptReturn).sCount = s.sCount := rfl
@[simp] theorem State.interruptReturn_sLo : (s.interruptReturn).sLo = s.sLo := rfl
@[simp] theorem State.interruptReturn_sHi : (s.interruptReturn).sHi = s.sHi := rfl
@[simp] theorem State.interruptReturn_sFin : (s.interruptReturn).sFin = s.sFin := rfl
@[simp] theorem State.interruptReturn_sSaved : (s.interruptReturn).sSaved = s.sSaved := rfl
@[simp] theorem State.interruptReturn_fgPhase : (s.interruptReturn).fgPhase = s.fgPhase := rfl
@[simp] theorem State.interruptReturn_bgPhase : (s.interruptReturn).bgPhase = .none := rfl
@[simp] theorem State.interruptReturn_sPhase : (s.interruptReturn).sPhase = s.sPhase := rfl
@[simp] theorem State.interruptReturn_sCaller : (s.interruptReturn).sCaller = s.sCaller := rfl
@[simp] theorem State.interruptReturn_fault : (s.interruptReturn).fault = s.fault := rfl
@[simp] theorem State.interruptReturn_refused : (s.interruptReturn).refused = s.refused := rfl
@[simp] theorem State.interruptReturn_refusalLog : (s.interruptReturn).refusalLog = s.refusalLog := rfl
@[simp] theorem State.interruptReturn_opValue : (s.interruptReturn).opValue = s.opValue := rfl
@[simp] theorem State.interruptReturn_opRate : (s.interruptReturn).opRate = s.opRate := rfl
@[simp] theorem State.interruptReturn_opDp : (s.interruptReturn).opDp = s.opDp := rfl
@[simp] theorem State.interruptReturn_hostQueue : (s.interruptReturn).hostQueue = s.hostQueue := rfl
@[simp] theorem State.interruptReturn_schedule : (s.interruptReturn).schedule = s.schedule := rfl
@[simp] theorem State.interruptReturn_lateDraws : (s.interruptReturn).lateDraws = s.lateDraws := rfl
@[simp] theorem State.interruptReturn_draws : (s.interruptReturn).draws = s.draws := rfl

/-! ## dropPending -/

@[simp] theorem State.dropPending_cfg : (s.dropPending).cfg = s.cfg := rfl
@[simp] theorem State.dropPending_value : (s.dropPending).value = s.value := rfl
@[simp] theorem State.dropPending_dpMask : (s.dropPending).dpMask = s.dpMask := rfl
@[simp] theorem State.dropPending_index : (s.dropPending).index = s.index := rfl
@[simp] theorem State.dropPending_refreshTicks : (s.dropPending).refreshTicks = s.refreshTicks := rfl
@[simp] theorem State.dropPending_attached : (s.dropPending).attached = s.attached := rfl
@[simp] theorem State.dropPending_late : (s.dropPending).late = s.late := rfl
@[simp] theorem State.dropPending_pending : (s.dropPending).pending = false := rfl
@[simp] theorem State.dropPending_gie : (s.dropPending).gie = s.gie := rfl
@[simp] theorem State.dropPending_irqSavedGie : (s.dropPending).irqSavedGie = s.irqSavedGie := rfl
@[simp] theorem State.dropPending_mtime : (s.dropPending).mtime = s.mtime := rfl
@[simp] theorem State.dropPending_mtimecmp : (s.dropPending).mtimecmp = s.mtimecmp := rfl
@[simp] theorem State.dropPending_gpioDigit : (s.dropPending).gpioDigit = s.gpioDigit := rfl
@[simp] theorem State.dropPending_gpioSeg : (s.dropPending).gpioSeg = s.gpioSeg := rfl
@[simp] theorem State.dropPending_sCount : (s.dropPending).sCount = s.sCount := rfl
@[simp] theorem State.dropPending_sLo : (s.dropPending).sLo = s.sLo := rfl
@[simp] theorem State.dropPending_sHi : (s.dropPending).sHi = s.sHi := rfl
@[simp] theorem State.dropPending_sFin : (s.dropPending).sFin = s.sFin := rfl
@[simp] theorem State.dropPending_sSaved : (s.dropPending).sSaved = s.sSaved := rfl
@[simp] theorem State.dropPending_fgPhase : (s.dropPending).fgPhase = s.fgPhase := rfl
@[simp] theorem State.dropPending_bgPhase : (s.dropPending).bgPhase = s.bgPhase := rfl
@[simp] theorem State.dropPending_sPhase : (s.dropPending).sPhase = s.sPhase := rfl
@[simp] theorem State.dropPending_sCaller : (s.dropPending).sCaller = s.sCaller := rfl
@[simp] theorem State.dropPending_fault : (s.dropPending).fault = s.fault := rfl
@[simp] theorem State.dropPending_refused : (s.dropPending).refused = s.refused := rfl
@[simp] theorem State.dropPending_refusalLog : (s.dropPending).refusalLog = s.refusalLog := rfl
@[simp] theorem State.dropPending_opValue : (s.dropPending).opValue = s.opValue := rfl
@[simp] theorem State.dropPending_opRate : (s.dropPending).opRate = s.opRate := rfl
@[simp] theorem State.dropPending_opDp : (s.dropPending).opDp = s.opDp := rfl
@[simp] theorem State.dropPending_hostQueue : (s.dropPending).hostQueue = s.hostQueue := rfl
@[simp] theorem State.dropPending_schedule : (s.dropPending).schedule = s.schedule := rfl
@[simp] theorem State.dropPending_lateDraws : (s.dropPending).lateDraws = s.lateDraws := rfl
@[simp] theorem State.dropPending_draws : (s.dropPending).draws = s.draws := rfl

/-! ## advanceCounter -/

@[simp] theorem State.advanceCounter_cfg : (s.advanceCounter).cfg = s.cfg := rfl
@[simp] theorem State.advanceCounter_value : (s.advanceCounter).value = s.value := rfl
@[simp] theorem State.advanceCounter_dpMask : (s.advanceCounter).dpMask = s.dpMask := rfl
@[simp] theorem State.advanceCounter_index : (s.advanceCounter).index = s.index := rfl
@[simp] theorem State.advanceCounter_refreshTicks : (s.advanceCounter).refreshTicks = s.refreshTicks := rfl
@[simp] theorem State.advanceCounter_attached : (s.advanceCounter).attached = s.attached := rfl
@[simp] theorem State.advanceCounter_late : (s.advanceCounter).late = s.late := rfl
@[simp] theorem State.advanceCounter_pending : (s.advanceCounter).pending = s.pending := rfl
@[simp] theorem State.advanceCounter_gie : (s.advanceCounter).gie = s.gie := rfl
@[simp] theorem State.advanceCounter_irqSavedGie : (s.advanceCounter).irqSavedGie = s.irqSavedGie := rfl
@[simp] theorem State.advanceCounter_mtime : (s.advanceCounter).mtime = s.mtime + 1 := rfl
@[simp] theorem State.advanceCounter_mtimecmp : (s.advanceCounter).mtimecmp = s.mtimecmp := rfl
@[simp] theorem State.advanceCounter_gpioDigit : (s.advanceCounter).gpioDigit = s.gpioDigit := rfl
@[simp] theorem State.advanceCounter_gpioSeg : (s.advanceCounter).gpioSeg = s.gpioSeg := rfl
@[simp] theorem State.advanceCounter_sCount : (s.advanceCounter).sCount = s.sCount := rfl
@[simp] theorem State.advanceCounter_sLo : (s.advanceCounter).sLo = s.sLo := rfl
@[simp] theorem State.advanceCounter_sHi : (s.advanceCounter).sHi = s.sHi := rfl
@[simp] theorem State.advanceCounter_sFin : (s.advanceCounter).sFin = s.sFin := rfl
@[simp] theorem State.advanceCounter_sSaved : (s.advanceCounter).sSaved = s.sSaved := rfl
@[simp] theorem State.advanceCounter_fgPhase : (s.advanceCounter).fgPhase = s.fgPhase := rfl
@[simp] theorem State.advanceCounter_bgPhase : (s.advanceCounter).bgPhase = s.bgPhase := rfl
@[simp] theorem State.advanceCounter_sPhase : (s.advanceCounter).sPhase = s.sPhase := rfl
@[simp] theorem State.advanceCounter_sCaller : (s.advanceCounter).sCaller = s.sCaller := rfl
@[simp] theorem State.advanceCounter_fault : (s.advanceCounter).fault = s.fault := rfl
@[simp] theorem State.advanceCounter_refused : (s.advanceCounter).refused = s.refused := rfl
@[simp] theorem State.advanceCounter_refusalLog : (s.advanceCounter).refusalLog = s.refusalLog := rfl
@[simp] theorem State.advanceCounter_opValue : (s.advanceCounter).opValue = s.opValue := rfl
@[simp] theorem State.advanceCounter_opRate : (s.advanceCounter).opRate = s.opRate := rfl
@[simp] theorem State.advanceCounter_opDp : (s.advanceCounter).opDp = s.opDp := rfl
@[simp] theorem State.advanceCounter_hostQueue : (s.advanceCounter).hostQueue = s.hostQueue := rfl
@[simp] theorem State.advanceCounter_schedule : (s.advanceCounter).schedule = s.schedule := rfl
@[simp] theorem State.advanceCounter_lateDraws : (s.advanceCounter).lateDraws = s.lateDraws := rfl
@[simp] theorem State.advanceCounter_draws : (s.advanceCounter).draws = s.draws := rfl

/-! ## returnToCaller -/

theorem State.returnToCaller_fg (h : s.sCaller = .fg) : s.returnToCaller = { s with fgPhase := .aAtt } := by
  simp [State.returnToCaller, h]

theorem State.returnToCaller_bg (h : s.sCaller = .bg) : s.returnToCaller = { s with bgPhase := .tx } := by
  simp [State.returnToCaller, h]

end Sys2Proof.Machine
end

