-- ==== Sys2Proof/Laws/Step.lean ====
section
/-! SUPPORT. Everything a step can do, said once: the updates of each agent's atomic step (R128), and the inversion of
`step`. -/

namespace Sys2Proof.Machine

/-! ## The draws change the model's own fields alone -/

theorem takeAgent_snd (s : State) : ∃ sch n, (takeAgent s).2 = { s with schedule := sch, draws := n } := by
  cases h : s.schedule with
  | nil => exact ⟨s.schedule, s.draws + 1, by simp [takeAgent, h]⟩
  | cons a rest => exact ⟨rest, s.draws, by simp [takeAgent, h]⟩

theorem takeCommand_snd (s : State) : ∃ q n, (takeCommand s).2 = { s with hostQueue := q, draws := n } := by
  cases h : s.hostQueue with
  | nil => exact ⟨s.hostQueue, s.draws + 1, by simp [takeCommand, h]⟩
  | cons a rest => exact ⟨rest, s.draws, by simp [takeCommand, h]⟩

theorem drawLate_snd (s : State) : ∃ l n, (drawLate s).2 = { s with lateDraws := l, draws := n } := by
  cases h : s.lateDraws with
  | nil => exact ⟨s.lateDraws, s.draws + 1, by simp [drawLate, h]⟩
  | cons a rest => exact ⟨rest, s.draws, by simp [drawLate, h]⟩

/-- The scheduler is called when it is off, and only then (R108). -/
theorem callScheduler_off {s : State} {c : Caller} (h : s.sPhase = .off) :
    callScheduler c s = .next { s with sCaller := c, sPhase := .s1 } := by
  simp [callScheduler, h]

/-! ## The updates of the scheduler's steps -/

/-- What one step of ARM(count) can do (R98), in a legal configuration. -/
inductive ArmUpdate (count : Word) (s : State) : State → Prop where
  | s1 (h : s.sPhase = .s1) :
    ArmUpdate count s { s with sCount := count, sSaved := s.gie, gie := false, sPhase := .s2 }
  | s2 (h : s.sPhase = .s2) : ArmUpdate count s { s with sLo := lo32 s.mtime, sPhase := .s3 }
  | s3 (h : s.sPhase = .s3) : ArmUpdate count s { s with sHi := hi32 s.mtime, sPhase := .s4 }
  | s4 (h : s.sPhase = .s4) : ArmUpdate count s { s with sFin := deadline s.sHi s.sLo s.sCount, sPhase := .s5 }
  | s5 (h : s.sPhase = .s5) : ArmUpdate count s { s with mtimecmp := withLo s.mtimecmp sentinel, sPhase := .s6 }
  | s6 (h : s.sPhase = .s6) : ArmUpdate count s { s with mtimecmp := withHi s.mtimecmp (hi32 s.sFin), sPhase := .s7 }
  | s7 (h : s.sPhase = .s7) : ArmUpdate count s { s with mtimecmp := withLo s.mtimecmp (lo32 s.sFin), sPhase := .s8 }
  | s8fg (h : s.sPhase = .s8) (hc : s.sCaller = .fg) :
    ArmUpdate count s { s with fgPhase := .aAtt, gie := s.sSaved, sPhase := .off }
  | s8bg (h : s.sPhase = .s8) (hc : s.sCaller = .bg) :
    ArmUpdate count s { s with bgPhase := .tx, gie := s.sSaved, sPhase := .off }
  | busFault (a : Access) (b : BusStep) (hm : a ∈ s.cfg.sixAccesses) (ha : s.cfg.admits a = false) :
    ArmUpdate count s (s.recordFault .busFault (.access a b))

theorem execArm_next {count : Word} {s t : State} (hl : s.cfg.legal = true) (h : execArm count s = .next t) :
    ArmUpdate count s t := by
  unfold execArm at h
  split at h
  case h_1 => cases h
  case h_2 hp => cases h; exact .s1 hp
  case h_3 hp =>
    rw [readThen, memRead_mtimeLo hl] at h
    cases ha : s.cfg.admits ⟨s.cfg.addrMtimeLo, 4, .read⟩ <;> simp only [ha] at h <;> cases h
    · exact .busFault _ _ (by simp [Config.sixAccesses]) ha
    · exact .s2 hp
  case h_4 hp =>
    rw [readThen, memRead_mtimeHi hl] at h
    cases ha : s.cfg.admits ⟨s.cfg.addrMtimeHi, 4, .read⟩ <;> simp only [ha] at h <;> cases h
    · exact .busFault _ _ (by simp [Config.sixAccesses]) ha
    · exact .s3 hp
  case h_5 hp => cases h; exact .s4 hp
  case h_6 hp =>
    rw [writeThen, memWrite_mtimecmpLo hl] at h
    cases ha : s.cfg.admits ⟨s.cfg.addrMtimecmpLo, 4, .write⟩ <;> simp only [ha] at h <;> cases h
    · exact .busFault _ _ (by simp [Config.sixAccesses, BusData.width]) ha
    · exact .s5 hp
  case h_7 hp =>
    rw [writeThen, memWrite_mtimecmpHi hl] at h
    cases ha : s.cfg.admits ⟨s.cfg.addrMtimecmpHi, 4, .write⟩ <;> simp only [ha] at h <;> cases h
    · exact .busFault _ _ (by simp [Config.sixAccesses, BusData.width]) ha
    · exact .s6 hp
  case h_8 hp =>
    rw [writeThen, memWrite_mtimecmpLo hl] at h
    cases ha : s.cfg.admits ⟨s.cfg.addrMtimecmpLo, 4, .write⟩ <;> simp only [ha] at h <;> cases h
    · exact .busFault _ _ (by simp [Config.sixAccesses, BusData.width]) ha
    · exact .s7 hp
  case h_9 hp =>
    cases h
    cases hc : s.sCaller
    · rw [State.returnToCaller_fg s hc]; exact .s8fg hp hc
    · rw [State.returnToCaller_bg s hc]; exact .s8bg hp hc

/-! ## The updates of an agent's step -/

/-- What one enabled step of an agent can do (R128), in a legal configuration and before the latch of R113. -/
inductive AgentUpdate (s : State) : Agent → State → Prop where
  | refuse (reason : RefuseReason) : AgentUpdate s .host ((takeCommand s).2.recordRefusal reason)
  | faultAtIssue (code : FaultCode) (w : Cmd) (h : code ≠ .busFault) :
    AgentUpdate s .host ((takeCommand s).2.recordFault code (.command w))
  | issueReset (value : Half) (rate : Word) (dp : Byte) (h : rate ≠ 0) :
    AgentUpdate s .host
      { (takeCommand s).2 with opValue := value, opRate := rate, opDp := dp, fgPhase := .rs1 }
  | issueSetval (value : Half) (dp : Byte) :
    AgentUpdate s .host { (takeCommand s).2 with opValue := value, opDp := dp, fgPhase := .v1 }
  | issueStart (h : s.attached = false) : AgentUpdate s .host { (takeCommand s).2 with fgPhase := .aArm }
  | issueStop (h : s.attached = true) : AgentUpdate s .host { (takeCommand s).2 with fgPhase := .sp1 }
  | stopDetached (h : s.attached = false) : AgentUpdate s .host (takeCommand s).2
  | rs1 (h : s.fgPhase = .rs1) : AgentUpdate s .foreground { s with value := s.opValue, fgPhase := .rs2 }
  | rs2 (h : s.fgPhase = .rs2) : AgentUpdate s .foreground { s with dpMask := s.opDp, fgPhase := .rs3 }
  | rs3 (h : s.fgPhase = .rs3) : AgentUpdate s .foreground { s with index := 0, fgPhase := .rs4 }
  | rs4 (h : s.fgPhase = .rs4) :
    AgentUpdate s .foreground
      { s with refreshTicks := interval s.cfg.timerResolution s.opRate, fgPhase := .idle }
  | v1 (h : s.fgPhase = .v1) : AgentUpdate s .foreground { s with value := s.opValue, fgPhase := .v2 }
  | v2 (h : s.fgPhase = .v2) : AgentUpdate s .foreground { s with dpMask := s.opDp, fgPhase := .idle }
  | aArm (h : s.fgPhase = .aArm) (hp : s.sPhase = .off) :
    AgentUpdate s .foreground { s with sCaller := .fg, sPhase := .s1 }
  | armFg (t : State) (h : s.fgPhase = .aArm) (hp : s.sPhase ≠ .off) (hu : ArmUpdate s.refreshTicks s t) :
    AgentUpdate s .foreground t
  | aAtt (h : s.fgPhase = .aAtt) :
    AgentUpdate s .foreground { s with attached := true, late := false, fgPhase := .idle }
  | sp1 (h : s.fgPhase = .sp1) :
    AgentUpdate s .foreground
      { (drawLate s).2 with attached := false, late := (drawLate s).1, fgPhase := .idle }
  | t1 (h : s.bgPhase = .t1) : AgentUpdate s .background { s with gpioDigit := oneHot s.index, bgPhase := .t2 }
  | t2 (h : s.bgPhase = .t2) :
    AgentUpdate s .background { s with gpioSeg := segByte s.value s.dpMask s.index, bgPhase := .t3 }
  | tickFault (a : Access) (b : BusStep) (hm : a ∈ s.cfg.sixAccesses) (ha : s.cfg.admits a = false) :
    AgentUpdate s .background (s.recordFault .busFault (.access a b))
  | t3 (h : s.bgPhase = .t3) : AgentUpdate s .background { s with index := nextIndex s.index, bgPhase := .tArm }
  | tArm (h : s.bgPhase = .tArm) (hp : s.sPhase = .off) :
    AgentUpdate s .background { s with sCaller := .bg, sPhase := .s1 }
  | armBg (t : State) (h : s.bgPhase = .tArm) (hp : s.sPhase ≠ .off) (hu : ArmUpdate s.refreshTicks s t) :
    AgentUpdate s .background t
  | tx (h : s.bgPhase = .tx) : AgentUpdate s .background s.interruptReturn
  | deliver : AgentUpdate s .deliver s.interruptEntry
  | counter : AgentUpdate s .counter s.advanceCounter
  | drop : AgentUpdate s .drop s.dropPending

theorem hostIssue_next {s t : State} (he : s.fgPhase = .idle) (h : hostIssue s = .next t) :
    AgentUpdate s .host t := by
  obtain ⟨q, n, hu⟩ := takeCommand_snd s
  have hfg : (takeCommand s).2.fgPhase = .idle := by rw [hu]; exact he
  have hat : (takeCommand s).2.attached = s.attached := by rw [hu]
  simp only [hostIssue] at h
  split at h
  case h_2 reason _ => cases h; exact .refuse reason
  case h_1 i hd =>
    have hw := HostInput.instr_wellFormed hd
    cases i <;> simp only [exec, execReset, execSetval, execStart, execStop, hfg] at h
    case reset value rate dp =>
      split at h <;> cases h
      · exact .faultAtIssue _ _ (by decide)
      · exact .issueReset _ _ _ ‹_›
    case setval => cases h; exact .issueSetval _ _
    case start =>
      split at h <;> cases h
      · exact .faultAtIssue _ _ (by decide)
      · exact .issueStart (by rw [← hat]; exact Bool.eq_false_iff.2 (by assumption))
    case stop =>
      split at h
      · cases h; exact .issueStop (by rw [← hat]; assumption)
      · split at h <;> cases h
        · exact .stopDetached (by rw [← hat]; exact Bool.eq_false_iff.2 (by assumption))
        · exact .faultAtIssue _ _ (by decide)
    case tick => simp [Instr.wellFormed, Instr.blockOnly] at hw
    case arm => simp [Instr.wellFormed, Instr.blockOnly] at hw

theorem foreground_next {s t : State} (hl : s.cfg.legal = true) (he : s.fgPhase ≠ .idle)
    (h : execNext s.foregroundInstr s = .next t) : AgentUpdate s .foreground t := by
  unfold State.foregroundInstr at h
  split at h
  case h_1 hp => exact absurd hp he
  case h_8 hp =>
    split at h
    case h_1 hs =>
      simp only [execNext, exec, execStart, hp] at h
      rw [callScheduler_off hs] at h
      cases h; exact .aArm hp hs
    case h_2 hs => exact .armFg t hp (by simpa using hs) (execArm_next hl h)
  case h_10 hp => simp only [execNext, exec, execStop, hp] at h; cases h; exact .sp1 hp
  case h_9 hp => simp only [execNext, exec, execStart, hp] at h; cases h; exact .aAtt hp
  case h_2 hp => simp only [execNext, exec, execReset, hp] at h; cases h; exact .rs1 hp
  case h_3 hp => simp only [execNext, exec, execReset, hp] at h; cases h; exact .rs2 hp
  case h_4 hp => simp only [execNext, exec, execReset, hp] at h; cases h; exact .rs3 hp
  case h_5 hp => simp only [execNext, exec, execReset, hp] at h; cases h; exact .rs4 hp
  case h_6 hp => simp only [execNext, exec, execSetval, hp] at h; cases h; exact .v1 hp
  case h_7 hp => simp only [execNext, exec, execSetval, hp] at h; cases h; exact .v2 hp

theorem background_next {s t : State} (hl : s.cfg.legal = true) (he : s.bgPhase ≠ .none)
    (h : execNext s.backgroundInstr s = .next t) : AgentUpdate s .background t := by
  unfold State.backgroundInstr at h
  split at h
  case h_1 hp => exact absurd hp he
  case h_2 hp =>
    simp only [execNext, exec, execTick, hp, writeThen, memWrite_gpioDigit hl] at h
    cases ha : s.cfg.admits ⟨s.cfg.addrDigit, 1, .write⟩ <;> simp only [ha] at h <;> cases h
    · exact .tickFault _ _ (by simp [Config.sixAccesses, BusData.width]) ha
    · exact .t1 hp
  case h_3 hp =>
    simp only [execNext, exec, execTick, hp, writeThen, memWrite_gpioSeg hl] at h
    cases ha : s.cfg.admits ⟨s.cfg.addrSeg, 1, .write⟩ <;> simp only [ha] at h <;> cases h
    · exact .tickFault _ _ (by simp [Config.sixAccesses, BusData.width]) ha
    · exact .t2 hp
  case h_4 hp => simp only [execNext, exec, execTick, hp] at h; cases h; exact .t3 hp
  case h_5 hp => simp only [execNext, exec, execTick, hp] at h; cases h; exact .tx hp
  case h_6 hp =>
    split at h
    case h_1 hs =>
      simp only [execNext, exec, execTick, hp] at h
      rw [callScheduler_off hs] at h
      cases h; exact .tArm hp hs
    case h_2 hs => exact .armBg t hp (by simpa using hs) (execArm_next hl h)

/-- Everything an enabled agent's step can do. -/
theorem agentStep_next {s t : State} {a : Agent} (hl : s.cfg.legal = true) (he : s.enabled a = true)
    (h : agentStep a s = .next t) : AgentUpdate s a t := by
  cases a <;>
    simp only [State.enabled, State.deliveryEnabled, State.inBackground, Bool.and_eq_true, beq_iff_eq,
      bne_iff_ne, Bool.not_eq_true', bne_eq_false_iff_eq] at he
  case host => exact hostIssue_next he.1.2 h
  case foreground => exact foreground_next hl he.1.2 h
  case background => exact background_next hl he.2 h
  case deliver =>
    have hp := he.1.2
    simp only [agentStep, exec, execTick, hp] at h
    cases h; exact .deliver
  case counter => cases h; exact .counter
  case drop => cases h; exact .drop

/-- Everything a step can do: the configuration is legal, and the agent that moves either is not enabled and is passed
over, or makes one of its updates, after which R113 updates PENDING. -/
theorem step_next {s t : State} (h : step s = .next t) :
    s.cfg.legal = true ∧
      (((takeAgent s).2.enabled (takeAgent s).1 = false ∧ t = (takeAgent s).2) ∨
        ((takeAgent s).2.enabled (takeAgent s).1 = true ∧
          ∃ u, AgentUpdate (takeAgent s).2 (takeAgent s).1 u ∧ t = (takeAgent s).2.latchEdge u)) := by
  simp only [step, atomicStep] at h
  split at h
  case isFalse => cases h
  case isTrue hl =>
    refine ⟨hl, ?_⟩
    have hl' : (takeAgent s).2.cfg.legal = true := by
      obtain ⟨sch, n, hu⟩ := takeAgent_snd s
      rw [hu]; exact hl
    simp only [runAgent] at h
    split at h
    case isFalse he => cases h; exact .inl ⟨by simpa using he, rfl⟩
    case isTrue he =>
      refine .inr ⟨he, ?_⟩
      cases hr : agentStep (takeAgent s).1 (takeAgent s).2 <;> simp only [hr, latched] at h <;> cases h
      exact ⟨_, agentStep_next hl' he hr, rfl⟩

/-- A property of a step that does not read what the draws change (`schedule`, `draws`) follows from its agents'
updates. -/
theorem step_property {P : State → State → Prop} {s t : State} (h : step s = .next t)
    (hread : ∀ sch n t, P { s with schedule := sch, draws := n } t → P s t)
    (hskip : ∀ sch n, P { s with schedule := sch, draws := n } { s with schedule := sch, draws := n })
    (hupdate : ∀ u a v, (∃ sch n, u = { s with schedule := sch, draws := n }) → u.cfg.legal = true →
      u.enabled a = true → AgentUpdate u a v → P u (u.latchEdge v)) : P s t := by
  obtain ⟨hl, h⟩ := step_next h
  obtain ⟨sch, n, hu⟩ := takeAgent_snd s
  rcases h with ⟨-, rfl⟩ | ⟨he, v, hv, rfl⟩
  · rw [hu]; exact hread sch n _ (hskip sch n)
  · refine hread sch n _ ?_
    rw [← hu]
    exact hupdate _ _ v ⟨sch, n, hu⟩ (by rw [hu]; exact hl) he hv

end Sys2Proof.Machine
end

