-- ==== Sys2Proof/Laws/Run.lean ====
section
/-! SUPPORT. Runs of the machine, one step at a time: the step of the agent the schedule gives (R128), and the latch of
R113 where the timer stands still. -/

namespace Sys2Proof.Machine

theorem run_zero (s : State) : Host.Core.run core 0 s = .next s := rfl

theorem run_succ {s t : State} (n : Nat) (h : step s = .next t) :
    Host.Core.run core (n + 1) s = Host.Core.run core n t := by
  have h' : core.step s = .next t := h
  simp only [Host.Core.run, h']

theorem run_succ_next {s t : State} {n : Nat} (h : Host.Core.run core (n + 1) s = .next t) :
    ∃ u, step s = .next u ∧ Host.Core.run core n u = .next t := by
  simp only [Host.Core.run] at h
  split at h
  case h_1 u hu => exact ⟨u, hu, h⟩
  all_goals cases h

/-- A run of `n + m` steps is one of `m` after one of `n`. -/
theorem run_add {s t : State} {n : Nat} (m : Nat) (h : Host.Core.run core n s = .next t) :
    Host.Core.run core (n + m) s = Host.Core.run core m t := by
  induction n generalizing s with
  | zero => cases h; rw [Nat.zero_add]
  | succ n ih =>
    obtain ⟨u, hu, h⟩ := run_succ_next h
    rw [Nat.add_right_comm, run_succ _ hu, ih h]

/-- The agent the schedule gives first moves. -/
theorem step_scheduled {s : State} {a : Agent} {rest : List Agent} (hl : s.cfg.legal = true)
    (hs : s.schedule = a :: rest) : step s = runAgent a { s with schedule := rest } := by
  simp [step, atomicStep, hl, takeAgent, hs]

/-- A choice that is not enabled is passed over. -/
theorem step_passed_over {s : State} {a : Agent} {rest : List Agent} (hl : s.cfg.legal = true)
    (hs : s.schedule = a :: rest) (he : State.enabled { s with schedule := rest } a = false) :
    step s = .next { s with schedule := rest } := by
  simp [step_scheduled hl hs, runAgent, he]

theorem latched_next (s t : State) :
    latched s (.next t) = .next { t with pending := t.pending || (!s.matchNow && t.matchNow) } := rfl

/-- A step that leaves the timer alone makes no edge. -/
theorem latched_still {s t : State} (h : t.mtime = s.mtime) (h' : t.mtimecmp = s.mtimecmp) :
    latched s (.next t) = .next t := by
  have : (t.pending || (!s.matchNow && t.matchNow)) = t.pending := by
    simp only [State.matchNow, h, h']
    cases matchOf s.mtime s.mtimecmp <;> simp
  rw [latched_next, this]

/-- An enabled agent's step, with what it answers before the latch. -/
theorem step_enabled {s t : State} {a : Agent} {rest : List Agent} (hl : s.cfg.legal = true)
    (hs : s.schedule = a :: rest) (he : State.enabled { s with schedule := rest } a = true)
    (ht : agentStep a { s with schedule := rest } = .next t) :
    step s = .next { t with pending := t.pending || (!s.matchNow && t.matchNow) } := by
  rw [step_scheduled hl hs, runAgent, if_pos he, ht, latched_next]
  rfl

/-- An enabled agent's step that leaves the timer alone. -/
theorem step_still {s t : State} {a : Agent} {rest : List Agent} (hl : s.cfg.legal = true)
    (hs : s.schedule = a :: rest) (he : State.enabled { s with schedule := rest } a = true)
    (ht : agentStep a { s with schedule := rest } = .next t)
    (h : t.mtime = s.mtime) (h' : t.mtimecmp = s.mtimecmp) : step s = .next t := by
  rw [step_scheduled hl hs, runAgent, if_pos he, ht]
  exact latched_still h h'

end Sys2Proof.Machine
end

