-- ==== Sys2Proof/Tests/Slice0.lean ====
section
/-! SUPPORT. Small tests with the expected results of 30_encoding.md and 95_test_vectors.md, and for each obligation
with hypotheses a concrete state and operands that meet them. -/

namespace Sys2Proof.Tests

open Sys2Proof.Machine

/-! ## Well-formed instructions and lines -/

theorem test_wellFormed_tick : Instr.wellFormed .host .tick = false ∧ Instr.wellFormed .block .tick = true := by decide

theorem test_wellFormed_arm :
    Instr.wellFormed .host (.arm 2500) = false ∧ Instr.wellFormed .block (.arm 2500) = true := by decide

theorem test_wellFormed_host :
    Instr.wellFormed .host (.reset 0xFFFF 0xFFFFFFFF 0xFF) = true ∧
    Instr.wellFormed .host (.setval 0xFFFF 0xFF) = true ∧
    Instr.wellFormed .host .start = true ∧ Instr.wellFormed .host .stop = true := by decide

/-- L2.0: each operand one past its field is refused, each at its greatest value is not. -/
theorem test_inRange :
    AsmLine.inRange (.reset 0x10000 1 (some 0)) = false ∧ AsmLine.inRange (.reset 1 0x100000000 (some 0)) = false ∧
    AsmLine.inRange (.reset 1 1 (some 0x100)) = false ∧ AsmLine.inRange (.construct 0x10000 1) = false ∧
    AsmLine.inRange (.construct 1 0x100000000) = false ∧ AsmLine.inRange (.setval 0x10000 0) = false ∧
    AsmLine.inRange (.setval 0 0x100) = false ∧ AsmLine.inRange (.arm 0x100000000) = false ∧
    AsmLine.inRange (.reset 0xFFFF 0xFFFFFFFF (some 0xFF)) = true := by decide

/-! ## Decoding: words written from the fields of R60, `rsv ++ rate ++ value ++ dp ++ op` -/

theorem test_decode_reset :
    decode .host (0b0000#4 ++ 400#32 ++ 0xBEEF#16 ++ 0b00000000#8 ++ 0b0001#4) = .ok (.reset 0xBEEF 400 0) := by decide

theorem test_decode_reset_max :
    decode .host 0x0FFFFFFFFFFFFFF1 = .ok (.reset 0xFFFF 0xFFFFFFFF 0xFF) := by decide

theorem test_decode_setval :
    decode .host (0b0000#4 ++ 0#32 ++ 0b0001001000110100#16 ++ 0b00001010#8 ++ 0b0010#4) =
      .ok (.setval 0x1234 0b1010) := by decide

theorem test_decode_start : decode .host (0b0000#4 ++ 0#32 ++ 0#16 ++ 0#8 ++ 0b0011#4) = .ok .start := by decide

theorem test_decode_stop : decode .host (0b0000#4 ++ 0#32 ++ 0#16 ++ 0#8 ++ 0b0100#4) = .ok .stop := by decide

theorem test_decode_tick : decode .block (0b0000#4 ++ 0#32 ++ 0#16 ++ 0#8 ++ 0b1000#4) = .ok .tick := by decide

theorem test_decode_arm : decode .block (0b0000#4 ++ 2500#32 ++ 0#16 ++ 0#8 ++ 0b1001#4) = .ok (.arm 2500) := by decide

/-- L2.0: the refused words. -/
theorem test_decode_reservedOp :
    decode .host 0x0000000000000000 = .error .reservedOp ∧ decode .host 0x0000000000000005 = .error .reservedOp ∧
    decode .host 0x000000000000000F = .error .reservedOp := by decide

theorem test_decode_reservedBits :
    decode .host 0x1000000000000001 = .error .reservedBits ∧ decode .host 0x0000000010000002 = .error .reservedBits ∧
    decode .host 0x0000000000000013 = .error .reservedBits ∧ decode .host 0x8000000000000004 = .error .reservedBits ∧
    decode .host 0x0000000000001009 = .error .reservedBits := by decide

theorem test_decode_internalOp :
    decode .host 0x0000000000000008 = .error .internalOp ∧ decode .host 0x0000009C40000009 = .error .internalOp := by
  decide

/-! ## The assembler (L2.0, R68, R69) -/

theorem test_parse_reset :
    (parseLine ['R', 'E', 'S', 'E', 'T', ' ', '0', 'x', 'B', 'E', 'E', 'F', ',', ' ', '4', '0', '0']).map assemble =
      some (.ok 0x000000190BEEF001) := by decide

theorem test_parse_setval :
    (parseLine ['S', 'E', 'T', 'V', 'A', 'L', ' ', '0', 'x', '1', '2', '3', '4', ',', ' ', '0', 'b', '1', '0', '1', '0',
      ' ', ';', 'x']).map assemble = some (.ok 0x00000000012340A2) := by decide

theorem test_parse_alias :
    (parseLine ['s', 't', 'a', 'r', 't', '_', 'r', 'e', 'f', 'r', 'e', 's', 'h', '(', ')']).map assemble =
      some (.ok 0x0000000000000003) := by decide

theorem test_assemble_construct : assemble (.construct 0x1234 1000) = .ok 0x0000003E81234001 := by decide

theorem test_assemble_range :
    assemble (.setval 0x10000 0) = .error .operandRange ∧
    assemble (.reset 1 0x100000000 (some 0)) = .error .operandRange ∧
    assemble (.setval 0 0x100) = .error .operandRange := by decide

/-! ## Single steps -/

/-- The start state of L2.1, INDEX 2. -/
def base : State :=
  { State.reset with value := 0xBEEF, index := 2, refreshTicks := 2500, mtimecmp := 0x19C4 }

/-- `base` with the handler attached. -/
def attached : State := { base with attached := true }

/-- `base` with a TICK at a step of its own. -/
def inTick (p : BgPhase) : State :=
  { base with attached := true, bgPhase := p, gie := false, irqSavedGie := true }

/-- `base` with START in the scheduler at a step of it. -/
def inArm (p : SPhase) : State := { base with fgPhase := .aArm, sPhase := p, gie := false, sCount := 2500 }

/-- L2.1, the row with rate 3. -/
theorem test_reset_divides :
    (nextOf (exec (.reset 0 3 0) { base with fgPhase := .rs4 })).map (·.refreshTicks) = some 333333 := by decide

/-- L2.1, the row with rate 0. -/
theorem test_reset_rate_zero :
    (nextOf (exec (.reset 0x1234 0 0) attached)).map (fun t => (t.fault.map (·.code), t.value, t.index)) =
      some (some .divZero, 0xBEEF, 2) := by decide

/-- L2.2: V1 writes VALUE alone. -/
theorem test_setval_v1 :
    (nextOf (exec (.setval 0xFFFF 0xF) { base with fgPhase := .v1 })).map (fun t => (t.value, t.dpMask, t.index)) =
      some (0xFFFF, 0, 2) := by decide

/-- L2.2: V2 stores all eight bits of dp. -/
theorem test_setval_v2 :
    (nextOf (exec (.setval 0xFFFF 0xF0) { base with fgPhase := .v2 })).map (·.dpMask) = some 0xF0 := by decide

/-- L2.3: a second START. -/
theorem test_start_double :
    (nextOf (exec .start attached)).map (fun t => (t.fault.map (·.code), t.mtimecmp)) =
      some (some .doubleStart, 0x19C4) := by decide

/-- L2.3: START after a STOP that owes a late fire. -/
theorem test_start_attaches :
    (nextOf (exec .start { base with fgPhase := .aAtt, late := true })).map (fun t => (t.attached, t.late)) =
      some (true, false) := by decide

/-- L2.3: STOP draws LATE. -/
theorem test_stop_draws :
    (nextOf (exec .stop { base with fgPhase := .sp1, attached := true, lateDraws := [true] })).map
      (fun t => (t.attached, t.late, t.mtimecmp)) = some (false, true, 0x19C4) := by decide

/-- L2.3: STOP while detached. -/
theorem test_stop_detached :
    nextOf (exec .stop base) = some base ∧
    (nextOf (exec .stop { base with cfg := { Config.assumed with stopWhenDetached := .fault } })).map
      (fun t => t.fault.map (·.code)) = some (some .stopDetached) := by decide

/-- L1.8: digit 1 of 0x1234 with its decimal point. -/
theorem test_tick_segments :
    (nextOf (exec .tick { inTick .t2 with value := 0x1234, dpMask := 0x0A, index := 1 })).map (·.gpioSeg) =
      some 0xCF := by decide

/-- L2.4: the last digit's select, and the index wraps. -/
theorem test_tick_last_digit :
    (nextOf (exec .tick { inTick .t1 with index := 3 })).map (·.gpioDigit) = some 0x08 ∧
    (nextOf (exec .tick { inTick .t3 with index := 3 })).map (·.index) = some 0 := by decide

/-- L2.7, row 5: the deadline wraps. -/
theorem test_arm_wraps :
    (nextOf (exec (.arm 0x9C4) { inArm .s4 with sHi := 0xFFFFFFFF, sLo := 0xFFFFF800, sCount := 0x9C4 })).map (·.sFin) =
      some 0x00000000000001C4 := by decide

/-- L2.7, row 6: S6 writes the high half, and MATCH falls. -/
theorem test_arm_s6 :
    (nextOf (exec (.arm 0x9C4) { inArm .s6 with
      mtime := 0x0000000100000010, mtimecmp := 0x00000000FFFFFFFF, sFin := 0x00000001000009D4 })).map
        (fun t => (t.mtimecmp, t.matchNow)) = some (0x00000001FFFFFFFF, false) := by decide

/-- L2.7: the column `edge`, and the deadline passed during the run (R141). -/
theorem test_armEdge :
    armEdge 0x1000 0xFFFFFFFFFFFFFFFF 0x19C4 = false ∧
    armEdge 0x00000000FFFFF800 0x00000000FFFFEE3C 0x00000001000001C4 = false ∧
    armEdge 0x0000000000000001 0x1 0x0000000100000000 = false ∧
    armEdge 0x123456789ABCDEF0 0x123456789ABCD52C 0x123456789ABCDEF0 = true ∧
    armEdge 0xFFFFFFFFFFFFF800 0xFFFFFFFFFFFFF800 0x00000000000001C4 = true ∧
    armEdge 0x0000000100000010 0x00000000FFFFFFF0 0x00000001000009D4 = false ∧
    armEdge 0x0000000200000000 0x00000001FFFFFF00 0x00000001FFFFFF10 = false := by decide

/-- L2.8: the rows of the table. -/
theorem test_delivery_conditions :
    let s := { base with pending := true, gie := true }
    State.deliveryEnabled { s with attached := true } = true ∧ State.deliveryEnabled { s with late := true } = true ∧
    State.deliveryEnabled s = false ∧ State.deliveryEnabled { s with gie := false, attached := true } = false ∧
    State.deliveryEnabled { inArm .s2 with pending := true } = false ∧
    State.deliveryEnabled { inTick .t3 with pending := true } = false ∧
    State.deliveryEnabled { s with pending := false, attached := true } = false ∧
    State.deliveryEnabled { s with attached := true, fault := some ⟨.divZero, .powerOn⟩ } = false := by decide

/-- L2.8: TX. -/
theorem test_interrupt_return :
    (nextOf (exec .tick (inTick .tx))).map (fun t => (t.gie, t.bgPhase)) = some (true, .none) := by decide

/-- L2.9: power-on. -/
theorem test_power_on :
    let s := State.powerOn { Config.assumed with initValue := 0xBEEF, initRateHz := 400 } PowerOnValues.assumed
    (s.value, s.refreshTicks, s.gie, s.fault, s.refused) = (0xBEEF, 2500, true, none, false) := by decide

theorem test_power_on_rate_zero :
    (State.powerOn { Config.assumed with initRateHz := 0 } PowerOnValues.assumed).fault =
      some ⟨.divZero, .powerOn⟩ := by decide

/-- L2.0, R70: a refused word changes no register. -/
theorem test_step_refuses :
    nextOf (step { base with hostQueue := [.word 0x0000000000000006], schedule := [.host] }) =
      some { base with refused := true, refusalLog := [.reservedOp] } := by decide

/-- L2.0, R70: a line the assembler refuses sets REFUSED and changes no register; R69's line issues RESET. -/
theorem test_step_assembles :
    nextOf (step { base with hostQueue := [.line (.setval 0x10000 0)], schedule := [.host] }) =
      some { base with refused := true, refusalLog := [.operandRange] } ∧
    (nextOf (step { base with hostQueue := [.line (.construct 0x1234 1000)], schedule := [.host] })).map
      (fun t => (t.fgPhase, t.opValue, t.opRate, t.opDp)) = some (.rs1, 0x1234, 1000, 0) := by decide

/-! ## The first instruction after reset -/

/-- Each row's word, placed by `withFetchWord`, runs its own first step. -/
theorem test_first_instruction :
    let first (w : Nat) := nextOf (step (State.reset.withFetchWord 64 w))
    (first 0x000000190BEEF001).map (fun t => (t.fgPhase, t.opValue, t.opRate)) = some (.rs1, 0xBEEF, 400) ∧
    (first 0x00000000012340A2).map (fun t => (t.fgPhase, t.opValue, t.opDp)) = some (.v1, 0x1234, 0x0A) ∧
    (first 3).map (·.fgPhase) = some .aArm ∧
    (first 4).map (fun t => (t.fgPhase, t.fault)) = some (.idle, none) ∧
    (first 8).map (fun t => (t.bgPhase, t.gie, t.pending)) = some (.t1, false, false) ∧
    (first 0x0000009C40000009).map (fun t => (t.sPhase, t.sCount, t.gie)) = some (.s2, 2500, false) := by decide

/-! ## Witnesses: for each obligation with hypotheses, states and operands that meet them, clause by clause -/

/-- A configuration whose platform admits the listed accesses alone. -/
def admitsOnly (l : List Access) : Config := { Config.assumed with busAdmit := .listed l }

/-- A configuration whose platform admits no access. -/
def admitsNothing : Config := admitsOnly []

/-- R46: the digit-select write, at the address of `Config.assumed`; the other five follow. -/
def writeDigit : Access := ⟨0x10000000, 1, .write⟩
/-- R46: the segment write. -/
def writeSeg : Access := ⟨0x10000001, 1, .write⟩
/-- R46: the low counter read. -/
def readLo : Access := ⟨0x20000000, 4, .read⟩
/-- R46: the high counter read. -/
def readHi : Access := ⟨0x20000004, 4, .read⟩
/-- R46: the low comparator write. -/
def writeLo : Access := ⟨0x20000008, 4, .write⟩
/-- R46: the high comparator write. -/
def writeHi : Access := ⟨0x2000000C, 4, .write⟩

/-- `base` with the given agents next to move. -/
def scheduled (l : List Agent) : State := { base with schedule := l }

/-- `base` with a word in the host's hands and the given agents next to move. -/
def issuing (w : Cmd) (l : List Agent) : State := { base with hostQueue := [.word w], schedule := l }

/-- A state in which a delivery is enabled, the given agents next to move. -/
def deliverable (l : List Agent) : State := { attached with pending := true, schedule := l }

theorem witness_EncodeOfDecode :
    decode .host 0x0FFFFFFFFFFFFFF1 = .ok (.reset 0xFFFF 0xFFFFFFFF 0xFF) ∧
    decode .block 0x0FFFFFFFF0000009 = .ok (.arm 0xFFFFFFFF) := by decide

theorem witness_DecodeFields :
    (decode .host 0x000000190BEEF001 = .ok (.reset 0xBEEF 400 0) ∧ (0x000000190BEEF001 : Cmd).extractLsb' 0 4 = 1) ∧
    (decode .host 0x00000000012340A2 = .ok (.setval 0x1234 0x0A) ∧ (0x00000000012340A2 : Cmd).extractLsb' 0 4 = 2) ∧
    (decode .host 3 = .ok .start ∧ (3 : Cmd).extractLsb' 0 4 = 3) ∧
    (decode .host 4 = .ok .stop ∧ (4 : Cmd).extractLsb' 0 4 = 4) ∧
    (decode .block 8 = .ok .tick ∧ (8 : Cmd).extractLsb' 0 4 = 8) ∧
    (decode .block 0x0000009C40000009 = .ok (.arm 2500) ∧ (0x0000009C40000009 : Cmd).extractLsb' 0 4 = 9) := by decide

theorem witness_RowsDisjoint :
    (0x000000190BEEF001 : Cmd) &&& Row.reset.mask = Row.reset.matchBits ∧
    decode .host 0x000000190BEEF001 = .ok (.reset 0xBEEF 400 0) := by decide

/-- Every operand at its greatest value, and one past it. -/
theorem witness_AssembleRange :
    (0xFFFF < 2 ^ 16 ∧ 0xFFFFFFFF < 2 ^ 32 ∧ 0xFF < 2 ^ 8) ∧
    ¬(0x10000 < 2 ^ 16) ∧ ¬(0x100000000 < 2 ^ 32) ∧ ¬(0x100 < 2 ^ 8) := by decide

theorem witness_DefaultAdmission : Config.assumed.busAdmit = .exactlySix := rfl

/-- A step that faults: RESET with rate 0. -/
theorem witness_DefaultNeverBusFaults :
    let s := issuing 0x000000000BEEF001 [.host]
    s.cfg.busAdmit = .exactlySix ∧ s.fault = none ∧
    ∃ t, step s = .next t ∧ t.fault = some ⟨.divZero, .command 0x000000000BEEF001⟩ := ⟨rfl, rfl, _, rfl, rfl⟩

theorem witness_BusFaultRecorded :
    admitsNothing.legal = true ∧
    (let s := { inTick .t1 with cfg := admitsNothing }
     s.fault = none ∧ s.bgPhase = .t1 ∧ s.cfg.admits ⟨s.cfg.addrDigit, 1, .write⟩ = false) ∧
    (let s := { inTick .t2 with cfg := admitsNothing }
     s.fault = none ∧ s.bgPhase = .t2 ∧ s.cfg.admits ⟨s.cfg.addrSeg, 1, .write⟩ = false) ∧
    (let s := { inArm .s2 with cfg := admitsNothing }
     s.fault = none ∧ s.sPhase = .s2 ∧ s.cfg.admits ⟨s.cfg.addrMtimeLo, 4, .read⟩ = false) ∧
    (let s := { inArm .s3 with cfg := admitsNothing }
     s.fault = none ∧ s.sPhase = .s3 ∧ s.cfg.admits ⟨s.cfg.addrMtimeHi, 4, .read⟩ = false) ∧
    (let s := { inArm .s5 with cfg := admitsNothing }
     s.fault = none ∧ s.sPhase = .s5 ∧ s.cfg.admits ⟨s.cfg.addrMtimecmpLo, 4, .write⟩ = false) ∧
    (let s := { inArm .s6 with cfg := admitsNothing }
     s.fault = none ∧ s.sPhase = .s6 ∧ s.cfg.admits ⟨s.cfg.addrMtimecmpHi, 4, .write⟩ = false) ∧
    (let s := { inArm .s7 with cfg := admitsNothing }
     s.fault = none ∧ s.sPhase = .s7 ∧ s.cfg.admits ⟨s.cfg.addrMtimecmpLo, 4, .write⟩ = false) := by decide

theorem witness_RegisterBytes : base.cfg.legal = true ∧ 0 < 4 ∧ 3 < 4 := by decide

/-- A byte beside the one T1 stores, the byte after the four S5 stores, and a form that stores nothing. -/
theorem witness_BytesOutsideStoreUnchanged :
    base.cfg.legal = true ∧
    ((nextOf (exec .tick (inTick .t1))).isSome = true ∧
      storedAccess .tick (inTick .t1) = some ⟨0x10000000, 1, .write⟩ ∧ ¬(0x10000000 ≤ 0x10000001 ∧ 0x10000001 < 0x10000001)) ∧
    ((nextOf (exec (.arm 2500) (inArm .s5))).isSome = true ∧
      storedAccess (.arm 2500) (inArm .s5) = some ⟨0x20000008, 4, .write⟩ ∧
      ¬(0x20000008 ≤ 0x2000000C ∧ 0x2000000C < 0x2000000C)) ∧
    ((nextOf (exec .start base)).isSome = true ∧ storedAccess .start base = none) := by decide

/-- Ranges that overlap, a timer register off its boundary, and a timer that does not count. -/
theorem witness_IllegalConfigRefused :
    Config.legal { Config.assumed with addrSeg := 0x10000000 } = false ∧
    Config.legal { Config.assumed with addrMtimeHi := 0x20000012 } = false ∧
    Config.legal { Config.assumed with timerResolution := 0 } = false := by decide

theorem witness_PowerOnState :
    (Config.assumed.legal = true ∧ Config.assumed.initRateHz ≠ 0) ∧
    (Config.legal { Config.assumed with initRateHz := 0 } = true) := by decide

theorem witness_PowerOnIsConstruction : base.fgPhase = .idle ∧ base.cfg.initRateHz ≠ 0 := by decide

theorem witness_ResetIssue :
    base.fgPhase = .idle ∧ (1 : Word) ≠ 0 ∧ (0 : Word) = 0 ∧ base.fault = none := by decide

theorem witness_ResetSteps :
    State.fgPhase { base with fgPhase := .rs1 } = .rs1 ∧ State.fgPhase { base with fgPhase := .rs2 } = .rs2 ∧
    State.fgPhase { base with fgPhase := .rs3 } = .rs3 ∧ State.fgPhase { base with fgPhase := .rs4 } = .rs4 := by decide

theorem witness_ResetRun :
    let s := issuing 0x0000003E81234001 (.host :: List.replicate 4 .foreground)
    s.cfg.legal = true ∧ s.fault = none ∧ s.fgPhase = .idle ∧ s.bgPhase = .none ∧ (1000 : Word) ≠ 0 ∧
    s.hostQueue = .word (encode (.reset 0x1234 1000 0)) :: [] ∧ s.schedule = .host :: List.replicate 4 .foreground ++ [] := by
  decide

theorem witness_SetvalSteps :
    base.fgPhase = .idle ∧ State.fgPhase { base with fgPhase := .v1 } = .v1 ∧
    State.fgPhase { base with fgPhase := .v2 } = .v2 := by decide

theorem witness_SetvalRun :
    let s := issuing 0x00000000012340A2 [.host, .foreground, .foreground]
    s.cfg.legal = true ∧ s.fault = none ∧ s.fgPhase = .idle ∧ s.bgPhase = .none ∧
    s.hostQueue = .word (encode (.setval 0x1234 0x0A)) :: [] ∧ s.schedule = [.host, .foreground, .foreground] ++ [] := by decide

theorem witness_SetvalIdempotent : base.fgPhase = .idle := rfl

theorem witness_StartSteps :
    (base.fgPhase = .idle ∧ base.attached = false) ∧
    (attached.fgPhase = .idle ∧ attached.attached = true ∧ attached.fault = none) ∧
    ((inArm .off).fgPhase = .aArm ∧ (inArm .off).sPhase = .off) ∧
    State.fgPhase { base with fgPhase := .aAtt } = .aAtt := by decide

theorem witness_StartRun :
    let s := { issuing 0x0000000000000003 (.host :: List.replicate 10 .foreground) with
      cfg := admitsOnly [readLo, readHi, writeLo, writeHi] }
    s.cfg.legal = true ∧ s.cfg.admitsScheduler = true ∧ s.fault = none ∧ s.attached = false ∧ s.fgPhase = .idle ∧
    s.bgPhase = .none ∧ s.sPhase = .off ∧ s.hostQueue = .word (encode .start) :: [] ∧
    s.schedule = .host :: List.replicate 10 .foreground ++ [] := by decide

theorem witness_StopSteps :
    (attached.fgPhase = .idle ∧ attached.attached = true) ∧
    (base.fgPhase = .idle ∧ base.attached = false ∧ base.cfg.stopWhenDetached = .noop) ∧
    (let s := { base with cfg := { Config.assumed with stopWhenDetached := .fault } }
     s.fgPhase = .idle ∧ s.attached = false ∧ s.cfg.stopWhenDetached = .fault ∧ s.fault = none) ∧
    (let s := { attached with fgPhase := .sp1, lateDraws := [false] }
     s.fgPhase = .sp1 ∧ s.lateDraws = false :: []) ∧
    (let s := { attached with fgPhase := .sp1 }
     s.fgPhase = .sp1 ∧ s.lateDraws = []) := by decide

/-- The three clauses: nothing owed, START's attach step, and the late fire. -/
theorem witness_LateFireAtMostOnce :
    (let s := scheduled [.counter]
     s.Inv ∧ (∃ t, step s = .next t) ∧ s.attached = false ∧ s.late = false) ∧
    (let s := { scheduled [.foreground] with fgPhase := .aAtt }
     s.Inv ∧ (∃ t, step s = .next t ∧ t.attached = true) ∧ s.attached = false) ∧
    (let s := { scheduled [.deliver] with late := true, pending := true }
     s.Inv ∧ (∃ t, step s = .next t ∧ t.bgPhase ≠ .none) ∧ s.attached = false ∧ s.bgPhase = .none) := by
  refine ⟨⟨?_, ⟨_, rfl⟩, rfl, rfl⟩, ⟨?_, ⟨_, rfl, rfl⟩, rfl⟩, ⟨?_, ⟨_, rfl, by decide⟩, rfl, rfl⟩⟩ <;>
    refine ⟨by unfold State.MaskInv; decide, by unfold State.CallInv; decide, by unfold State.ComparatorInv; decide,
      by unfold State.AttachInv; decide, by unfold State.PortInv; decide, by unfold State.MarkInv; decide⟩

/-- Enabled, and each condition of R114 failing. -/
theorem witness_DeliveryEntry :
    let enabled (s : State) : Prop :=
      s.fault = none ∧ s.pending = true ∧ s.gie = true ∧ (s.attached = true ∨ s.late = true) ∧ s.bgPhase = .none ∧
        s.sPhase = .off
    let s := deliverable [.deliver]
    s.cfg.legal = true ∧ s.schedule = .deliver :: [] ∧ enabled s ∧ ¬enabled { s with pending := false } ∧
    ¬enabled { s with gie := false } ∧ ¬enabled { s with attached := false } ∧ ¬enabled { s with sPhase := .s1 } := by
  decide

/-- T1 and T2 on a platform that admits their own access alone, the others on one that admits none. -/
theorem witness_TickSteps :
    State.bgPhase { base with cfg := admitsNothing } = .none ∧
    (let s := { inTick .t1 with cfg := admitsOnly [writeDigit] }
     s.bgPhase = .t1 ∧ s.cfg.legal = true ∧ s.cfg.admits ⟨s.cfg.addrDigit, 1, .write⟩ = true) ∧
    (let s := { inTick .t2 with cfg := admitsOnly [writeSeg] }
     s.bgPhase = .t2 ∧ s.cfg.legal = true ∧ s.cfg.admits ⟨s.cfg.addrSeg, 1, .write⟩ = true) ∧
    State.bgPhase { inTick .t3 with cfg := admitsNothing } = .t3 ∧
    (let s := { inTick .tArm with cfg := admitsNothing }
     s.bgPhase = .tArm ∧ s.sPhase = .off) ∧
    State.bgPhase { inTick .tx with cfg := admitsNothing } = .tx := by decide

theorem witness_TickRun :
    let s := deliverable tickAgents
    s.cfg.legal = true ∧ s.cfg.admitsSix = true ∧ s.deliveryEnabled = true ∧ s.schedule = tickAgents ++ [] := by decide

theorem witness_GhostDigit :
    let s := { inTick .t1 with cfg := admitsOnly [writeDigit], schedule := [.background] }
    s.cfg.legal = true ∧ s.cfg.admits ⟨s.cfg.addrDigit, 1, .write⟩ = true ∧ s.fault = none ∧ s.bgPhase = .t1 ∧
    s.schedule = .background :: [] := by decide

theorem witness_MatchCondition :
    let s := { base with mtime := 0xFFFFFFFFFFFFFFFF, mtimecmp := 1 }
    s.mtime = 0xFFFFFFFFFFFFFFFF ∧ s.mtimecmp ≠ 0 := by decide

/-- The deadline 0x19C4 reached by one step of the counter; a delivery; a drop; and an edge kept in START's critical
section, with the handler attached and with it detached. -/
theorem witness_PendingOnRisingEdge :
    (let s := { scheduled [.counter] with mtime := 0x19C3 }
     ∃ t, step s = .next t ∧ s.matchNow = false ∧ t.matchNow = true ∧ t.pending = true) ∧
    (let s := deliverable [.deliver]
     ∃ t, step s = .next t ∧ s.pending = true ∧ t.pending = false) ∧
    (let s := { scheduled [.drop] with pending := true }
     ∃ t, step s = .next t ∧ s.pending = true ∧ t.pending = false) ∧
    (let s := { deliverable [.counter] with gie := false }
     (∃ t, step s = .next t) ∧ s.pending = true ∧ s.gie = false) ∧
    (let s := { inArm .s3 with pending := true, schedule := [.foreground] }
     (∃ t, step s = .next t) ∧ s.pending = true ∧ s.gie = false ∧ s.attached = false) :=
  ⟨⟨_, rfl, by decide, by decide, by decide⟩, ⟨_, rfl, rfl, rfl⟩, ⟨_, rfl, rfl, rfl⟩, ⟨⟨_, rfl⟩, rfl, rfl⟩,
    ⟨_, rfl⟩, rfl, rfl, rfl⟩

theorem witness_WorkedEncodings : base.fgPhase = .idle ∧ base.fault = none := by decide

theorem witness_CounterStep :
    let s := { scheduled [.counter] with fault := some ⟨.divZero, .powerOn⟩ }
    s.cfg.legal = true ∧ s.schedule = .counter :: [] := by decide

theorem witness_DropWhileDetached :
    (let s := scheduled [.drop]
     s.cfg.legal = true ∧ s.fault = none ∧ s.schedule = .drop :: [] ∧ s.attached = false) ∧
    (let s := deliverable [.drop]
     s.cfg.legal = true ∧ s.fault = none ∧ s.schedule = .drop :: [] ∧ s.attached = true) := by decide

/-- A step inside TICK, T3's, and TX's. -/
theorem witness_NoNesting :
    (let s := { inTick .t1 with schedule := [.background] }
     s.Inv ∧ (∃ t, step s = .next t ∧ t.bgPhase ≠ .none) ∧ s.bgPhase ≠ .none) ∧
    (let s := { inTick .t3 with
       schedule := [.background], gpioDigit := oneHot 2, gpioSeg := segByte 0xBEEF 0 2 }
     s.Inv ∧ (∃ t, step s = .next t ∧ t.index ≠ s.index) ∧ s.bgPhase ≠ .none) ∧
    (let s := { inTick .tx with
       schedule := [.background], gpioDigit := oneHot 1, gpioSeg := segByte 0xBEEF 0 1 }
     s.Inv ∧ (∃ t, step s = .next t ∧ t.bgPhase = .none) ∧ s.bgPhase ≠ .none) := by
  refine ⟨⟨?_, ⟨_, rfl, by decide⟩, by decide⟩, ⟨?_, ⟨_, rfl, by decide⟩, by decide⟩,
    ⟨?_, ⟨_, rfl, rfl⟩, by decide⟩⟩ <;>
    refine ⟨by unfold State.MaskInv; decide, by unfold State.CallInv; decide, by unfold State.ComparatorInv; decide,
      by unfold State.AttachInv; decide, by unfold State.PortInv; decide, by unfold State.MarkInv; decide⟩

/-- S2 and S3 on a platform that admits their own read alone, S1 and S4 on one that admits none. -/
theorem witness_ArmReadSteps :
    State.sPhase { inArm .s1 with cfg := admitsNothing } = .s1 ∧
    (let s := { inArm .s2 with cfg := admitsOnly [readLo] }
     s.sPhase = .s2 ∧ s.cfg.legal = true ∧ s.cfg.admits ⟨s.cfg.addrMtimeLo, 4, .read⟩ = true) ∧
    (let s := { inArm .s3 with cfg := admitsOnly [readHi] }
     s.sPhase = .s3 ∧ s.cfg.legal = true ∧ s.cfg.admits ⟨s.cfg.addrMtimeHi, 4, .read⟩ = true) ∧
    State.sPhase { inArm .s4 with cfg := admitsNothing } = .s4 := by decide

/-- S5, S6 and S7 on a platform that admits their own write alone, S8 on one that admits none. -/
theorem witness_ArmWriteSteps :
    (let s := { inArm .s5 with cfg := admitsOnly [writeLo] }
     s.sPhase = .s5 ∧ s.cfg.legal = true ∧ s.cfg.admits ⟨s.cfg.addrMtimecmpLo, 4, .write⟩ = true) ∧
    (let s := { inArm .s6 with cfg := admitsOnly [writeHi] }
     s.sPhase = .s6 ∧ s.cfg.legal = true ∧ s.cfg.admits ⟨s.cfg.addrMtimecmpHi, 4, .write⟩ = true) ∧
    (let s := { inArm .s7 with cfg := admitsOnly [writeLo] }
     s.sPhase = .s7 ∧ s.cfg.legal = true ∧ s.cfg.admits ⟨s.cfg.addrMtimecmpLo, 4, .write⟩ = true) ∧
    (let s := { inArm .s8 with cfg := admitsNothing }
     s.sPhase = .s8 ∧ s.sCaller = .fg) ∧
    (let s := { inTick .tArm with cfg := admitsNothing, sPhase := .s8, sCaller := .bg }
     s.sPhase = .s8 ∧ s.sCaller = .bg) := by decide

/-- The sixth row of L2.7: MATCH is 1 after S5. -/
theorem witness_ArmTransients :
    let s := { inArm .s5 with
      cfg := admitsOnly [writeLo, writeHi]
      mtime := 0x0000000100000010, mtimecmp := 0x00000000FFFFFFF0, sFin := 0x00000001000009D4 }
    s.cfg.legal = true ∧ s.cfg.admits ⟨s.cfg.addrMtimecmpLo, 4, .write⟩ = true ∧
    s.cfg.admits ⟨s.cfg.addrMtimecmpHi, 4, .write⟩ = true ∧ s.sPhase = .s5 ∧
    (nextOf (exec (.arm 2500) s)).map (·.matchNow) = some true := by decide

/-- The torn read of L2.7, in START's run and in TICK's. -/
theorem witness_TornRead :
    (let s := { inArm .s2 with
       cfg := admitsOnly [readLo, readHi]
       mtime := 0x00000004FFFFFFFF, schedule := [.foreground, .counter, .foreground, .foreground] }
     s.cfg.legal = true ∧ s.cfg.admits ⟨s.cfg.addrMtimeLo, 4, .read⟩ = true ∧
     s.cfg.admits ⟨s.cfg.addrMtimeHi, 4, .read⟩ = true ∧ s.fault = none ∧ s.bgPhase = .none ∧ s.fgPhase = .aArm ∧
     s.sPhase = .s2 ∧ s.schedule = .foreground :: List.replicate 1 .counter ++ [.foreground, .foreground] ++ [] ∧
     lo32 s.mtime = 0xFFFFFFFF) ∧
    (let s := { inTick .tArm with
       cfg := admitsOnly [readLo, readHi], sPhase := .s2, sCaller := .bg, mtime := 0x00000004FFFFFFFF
       schedule := [.background, .counter, .background, .background] }
     s.cfg.legal = true ∧ s.cfg.admits ⟨s.cfg.addrMtimeLo, 4, .read⟩ = true ∧
     s.cfg.admits ⟨s.cfg.addrMtimeHi, 4, .read⟩ = true ∧ s.fault = none ∧ s.bgPhase = .tArm ∧
     s.sPhase = .s2 ∧ s.schedule = .background :: List.replicate 1 .counter ++ [.background, .background] ++ [] ∧
     lo32 s.mtime = 0xFFFFFFFF) := by decide

theorem witness_StepKeepsInv :
    let s := { inTick .t1 with schedule := [.background] }
    s.Inv ∧ ∃ t, step s = .next t := by
  refine ⟨?_, _, rfl⟩
  refine ⟨by unfold State.MaskInv; decide, by unfold State.CallInv; decide, by unfold State.ComparatorInv; decide,
    by unfold State.AttachInv; decide, by unfold State.PortInv; decide, by unfold State.MarkInv; decide⟩

theorem witness_StepAnswersNext : State.reset.cfg.legal = true := by decide

/-- A word, and the line that assembles to it. -/
theorem witness_StepRunsHostWord :
    (let s := issuing 0x0000000000000003 [.host]
     s.cfg.legal = true ∧ s.fault = none ∧ s.fgPhase = .idle ∧ s.bgPhase = .none ∧
     s.hostQueue = .word 0x0000000000000003 :: [] ∧ s.schedule = .host :: [] ∧
     decode .host 0x0000000000000003 = .ok .start) ∧
    (let s := { scheduled [.host] with hostQueue := [.line (.setval 0x1234 0x0A)] }
     s.cfg.legal = true ∧ s.fault = none ∧ s.fgPhase = .idle ∧ s.bgPhase = .none ∧
     s.hostQueue = .line (.setval 0x1234 0x0A) :: [] ∧ s.schedule = .host :: [] ∧
     assemble (.setval 0x1234 0x0A) = .ok 0x00000000012340A2 ∧
     decode .host 0x00000000012340A2 = .ok (.setval 0x1234 0x0A)) := by decide

/-- A word, a line of the block's own operation, and a line with an operand out of range. -/
theorem witness_StepRefusesHostWord :
    (let s := issuing 0x0000000000000006 [.host]
     s.cfg.legal = true ∧ s.fault = none ∧ s.fgPhase = .idle ∧ s.bgPhase = .none ∧
     s.hostQueue = .word 0x0000000000000006 :: [] ∧ s.schedule = .host :: [] ∧
     decode .host 0x0000000000000006 = .error .reservedOp) ∧
    (let s := { scheduled [.host] with hostQueue := [.line .tick] }
     s.hostQueue = .line .tick :: [] ∧ s.schedule = .host :: [] ∧ assemble .tick = .ok 0x0000000000000008 ∧
     decode .host 0x0000000000000008 = .error .internalOp) ∧
    (let s := { scheduled [.host] with hostQueue := [.line (.setval 0x10000 0)] }
     s.hostQueue = .line (.setval 0x10000 0) :: [] ∧ s.schedule = .host :: [] ∧
     assemble (.setval 0x10000 0) = .error .operandRange) := by decide

/-- A step of each kind: a command's own, the scheduler's for START, TICK's, the scheduler's for TICK, a delivery. -/
theorem witness_StepRunsPhase :
    (let s := { scheduled [.foreground] with fgPhase := .rs3 }
     s.cfg.legal = true ∧ s.schedule = .foreground :: [] ∧ s.fault = none ∧ s.bgPhase = .none ∧ s.fgPhase = .rs3) ∧
    (let s := { scheduled [.foreground] with fgPhase := .v2 }
     s.cfg.legal = true ∧ s.schedule = .foreground :: [] ∧ s.fault = none ∧ s.bgPhase = .none ∧ s.fgPhase = .v2) ∧
    (let s := { scheduled [.foreground] with fgPhase := .aAtt }
     s.cfg.legal = true ∧ s.schedule = .foreground :: [] ∧ s.fault = none ∧ s.bgPhase = .none ∧ s.fgPhase = .aAtt) ∧
    (let s := { inArm .s8 with schedule := [.foreground] }
     s.cfg.legal = true ∧ s.schedule = .foreground :: [] ∧ s.fault = none ∧ s.bgPhase = .none ∧ s.fgPhase = .aArm ∧
       s.sPhase ≠ .off) ∧
    (let s := { attached with schedule := [.foreground], fgPhase := .sp1 }
     s.cfg.legal = true ∧ s.schedule = .foreground :: [] ∧ s.fault = none ∧ s.bgPhase = .none ∧ s.fgPhase = .sp1) ∧
    (let s := { inTick .tArm with schedule := [.background] }
     s.cfg.legal = true ∧ s.schedule = .background :: [] ∧ s.fault = none ∧ s.bgPhase = .tArm ∧ s.sPhase = .off) ∧
    (let s := { inTick .tArm with schedule := [.background], sPhase := .s1, sCaller := .bg }
     s.cfg.legal = true ∧ s.schedule = .background :: [] ∧ s.fault = none ∧ s.bgPhase = .tArm ∧ s.sPhase ≠ .off) ∧
    (let s := deliverable [.deliver]
     s.cfg.legal = true ∧ s.schedule = .deliver :: [] ∧ s.deliveryEnabled = true) := by decide

theorem witness_NotEnabledPassedOver :
    (let s := { scheduled [.host] with fgPhase := .v1 }
     s.cfg.legal = true ∧ s.schedule = .host :: [] ∧ ¬(s.fault = none ∧ s.fgPhase = .idle ∧ s.bgPhase = .none)) ∧
    (let s := scheduled [.foreground]
     s.cfg.legal = true ∧ s.schedule = .foreground :: [] ∧
       ¬(s.fault = none ∧ s.fgPhase ≠ .idle ∧ s.bgPhase = .none)) ∧
    (let s := scheduled [.background]
     s.cfg.legal = true ∧ s.schedule = .background :: [] ∧ ¬(s.fault = none ∧ s.bgPhase ≠ .none)) ∧
    (let s := { scheduled [.drop] with pending := false }
     s.cfg.legal = true ∧ s.schedule = .drop :: [] ∧
       ¬(s.fault = none ∧ s.attached = false ∧ s.pending = true)) ∧
    (let s := { scheduled [.drop] with pending := true, fault := some ⟨.divZero, .powerOn⟩ }
     s.cfg.legal = true ∧ s.schedule = .drop :: [] ∧
       ¬(s.fault = none ∧ s.attached = false ∧ s.pending = true)) := by decide

theorem witness_FaultedIsQuiescent :
    let s := { scheduled [.counter] with fault := some ⟨.divZero, .powerOn⟩ }
    s.fault ≠ none ∧ ∃ t, step s = .next t := ⟨by decide, _, rfl⟩

theorem witness_MarksAreSticky :
    let s := { scheduled [.counter] with
      fault := some ⟨.divZero, .powerOn⟩, refused := true, refusalLog := [.reservedOp] }
    (∃ t, step s = .next t) ∧ s.fault = some ⟨.divZero, .powerOn⟩ ∧ s.refused = true := ⟨⟨_, rfl⟩, rfl, rfl⟩

/-- One step that writes each register. -/
theorem witness_DisplayOwnership :
    (let s := { scheduled [.foreground] with fgPhase := .v1 }
     ∃ t, step s = .next t ∧ t.value ≠ s.value) ∧
    (let s := { scheduled [.foreground] with fgPhase := .v2, opDp := 0xF }
     ∃ t, step s = .next t ∧ t.dpMask ≠ s.dpMask) ∧
    (let s := { scheduled [.foreground] with fgPhase := .rs3 }
     ∃ t, step s = .next t ∧ t.index ≠ s.index) ∧
    (let s := { inTick .t3 with schedule := [.background] }
     ∃ t, step s = .next t ∧ t.index ≠ s.index) ∧
    (let s := { scheduled [.foreground] with fgPhase := .rs4, opRate := 1000 }
     ∃ t, step s = .next t ∧ t.refreshTicks ≠ s.refreshTicks) ∧
    (let s := { scheduled [.foreground] with fgPhase := .aAtt }
     ∃ t, step s = .next t ∧ t.attached ≠ s.attached) :=
  ⟨⟨_, rfl, by decide⟩, ⟨_, rfl, by decide⟩, ⟨_, rfl, by decide⟩, ⟨_, rfl, by decide⟩, ⟨_, rfl, by decide⟩,
    ⟨_, rfl, by decide⟩⟩

theorem witness_PortOwnership :
    (let s := { inTick .t1 with schedule := [.background] }
     ∃ t, step s = .next t ∧ t.gpioDigit ≠ s.gpioDigit) ∧
    (let s := { inTick .t2 with schedule := [.background] }
     ∃ t, step s = .next t ∧ t.gpioSeg ≠ s.gpioSeg) := ⟨⟨_, rfl, by decide⟩, ⟨_, rfl, by decide⟩⟩

theorem witness_TimerOwnership :
    (let s := scheduled [.counter]
     ∃ t, step s = .next t ∧ t.mtime ≠ s.mtime) ∧
    (let s := { inArm .s5 with schedule := [.foreground] }
     ∃ t, step s = .next t ∧ t.mtimecmp ≠ s.mtimecmp) ∧
    (let s := { inArm .s6 with schedule := [.foreground], mtimecmp := 0xFFFFFFFFFFFFFFFF }
     ∃ t, step s = .next t ∧ t.mtimecmp ≠ s.mtimecmp) ∧
    (let s := { inArm .s7 with schedule := [.foreground], mtimecmp := 0x00000000FFFFFFFF }
     ∃ t, step s = .next t ∧ t.mtimecmp ≠ s.mtimecmp) :=
  ⟨⟨_, rfl, by decide⟩, ⟨_, rfl, by decide⟩, ⟨_, rfl, by decide⟩, ⟨_, rfl, by decide⟩⟩

/-- S1, S8, interrupt entry and interrupt return. -/
theorem witness_GieOwnership :
    (let s := { inArm .s1 with schedule := [.foreground], gie := true }
     ∃ t, step s = .next t ∧ t.gie ≠ s.gie) ∧
    (let s := { inArm .s8 with schedule := [.foreground], sSaved := true }
     ∃ t, step s = .next t ∧ t.gie ≠ s.gie) ∧
    (let s := deliverable [.deliver]
     ∃ t, step s = .next t ∧ t.gie ≠ s.gie) ∧
    (let s := { inTick .tx with schedule := [.background] }
     ∃ t, step s = .next t ∧ t.gie ≠ s.gie) :=
  ⟨⟨_, rfl, by decide⟩, ⟨_, rfl, by decide⟩, ⟨_, rfl, by decide⟩, ⟨_, rfl, by decide⟩⟩

/-- The mix vector of L2.2. -/
theorem witness_SetvalMixedTick :
    let s := { deliverable (.foreground :: tickAgents ++ [.foreground]) with
      fgPhase := .v1, opValue := 0xFFFF, opDp := 0xF }
    s.cfg.legal = true ∧ s.cfg.admitsSix = true ∧ s.fault = none ∧ s.fgPhase = .v1 ∧ s.bgPhase = .none ∧
    s.sPhase = .off ∧ s.pending = true ∧ s.gie = true ∧ (s.attached = true ∨ s.late = true) ∧
    s.schedule = .foreground :: tickAgents ++ .foreground :: [] := by decide

/-- The interleaving vector of L2.1. -/
theorem witness_ResetMixedTick :
    let s := { deliverable (.foreground :: tickAgents ++ [.foreground]) with
      fgPhase := .rs3, value := 0x1234, opValue := 0x1234, opRate := 1000 }
    s.cfg.legal = true ∧ s.cfg.admitsSix = true ∧ s.fault = none ∧ s.fgPhase = .rs3 ∧ s.bgPhase = .none ∧
    s.sPhase = .off ∧ s.pending = true ∧ s.gie = true ∧ (s.attached = true ∨ s.late = true) ∧
    s.schedule = .foreground :: tickAgents ++ .foreground :: [] := by decide

/-- P5 of 95_test_vectors.md: two TICKs, the counter at 0x1000. -/
theorem witness_ZeroIntervalBackToBack :
    let s := { deliverable (List.replicate 2 tickAgents).flatten with refreshTicks := 0 }
    s.cfg.legal = true ∧ s.cfg.admitsSix = true ∧ s.deliveryEnabled = true ∧ s.attached = true ∧
    s.refreshTicks = 0 ∧ lo32 s.mtime ≠ 0xFFFFFFFF ∧ s.schedule = (List.replicate 2 tickAgents).flatten ++ [] ∧
    2 ≠ 0 := by decide

/-- P3 of 95_test_vectors.md: the edge kept. -/
theorem witness_StaleEdgeDeliveredAfterStart :
    let s := { issuing 0x0000000000000003 (.host :: List.replicate 10 .foreground ++ [.deliver]) with pending := true }
    s.cfg.legal = true ∧ s.cfg.admitsScheduler = true ∧ s.fault = none ∧ s.attached = false ∧ s.fgPhase = .idle ∧
    s.bgPhase = .none ∧ s.sPhase = .off ∧ s.pending = true ∧ s.gie = true ∧
    s.hostQueue = .word (encode .start) :: [] ∧
    s.schedule = .host :: List.replicate 10 .foreground ++ .deliver :: [] := by decide

/-- The rows 4 and 5 of L2.7 in TICK's run, its counter that passes the deadline in START's, and S7 alone. -/
theorem witness_DeadlinePassedDuringRun :
    (let s := { inTick .tArm with
       sPhase := .s5, sCaller := .bg, mtime := 0x123456789ABCDEF0, mtimecmp := 0x123456789ABCD52C
       sFin := 0x123456789ABCDEF0, schedule := List.replicate 3 .background }
     s.cfg.legal = true ∧ s.cfg.admits ⟨s.cfg.addrMtimecmpLo, 4, .write⟩ = true ∧
     s.cfg.admits ⟨s.cfg.addrMtimecmpHi, 4, .write⟩ = true ∧ s.fault = none ∧ s.bgPhase = .tArm ∧ s.sPhase = .s5 ∧
     s.schedule = .background :: .background :: .background :: [] ∧
     matchOf s.mtime (join (hi32 s.sFin) 0xFFFFFFFF) = false ∧ s.sFin.toNat ≤ s.mtime.toNat) ∧
    (let s := { inArm .s5 with
       mtime := 0x0000000200000000, mtimecmp := 0x00000001FFFFFF00, sFin := 0x00000001FFFFFF10
       schedule := List.replicate 3 .foreground }
     s.cfg.legal = true ∧ s.cfg.admits ⟨s.cfg.addrMtimecmpLo, 4, .write⟩ = true ∧
     s.cfg.admits ⟨s.cfg.addrMtimecmpHi, 4, .write⟩ = true ∧ s.fault = none ∧ s.bgPhase = .none ∧ s.fgPhase = .aArm ∧
     s.sPhase = .s5 ∧ s.schedule = .foreground :: .foreground :: .foreground :: [] ∧
     s.mtimecmp.toNat ≤ s.mtime.toNat ∧ (hi32 s.mtimecmp).toNat < (hi32 s.mtime).toNat ∧
     (hi32 s.sFin).toNat < (hi32 s.mtime).toNat) ∧
    (let s := { inTick .tArm with
       sPhase := .s5, sCaller := .bg, mtime := 0xFFFFFFFFFFFFF800, mtimecmp := 0xFFFFFFFFFFFFF800
       sFin := 0x00000000000001C4, schedule := List.replicate 3 .background }
     s.sPhase = .s5 ∧ s.schedule = .background :: .background :: .background :: [] ∧
     matchOf s.mtime (join (hi32 s.mtimecmp) 0xFFFFFFFF) = false ∧
     (hi32 s.sFin).toNat < (hi32 s.mtime).toNat) ∧
    (let s := { inArm .s7 with
       cfg := admitsOnly [writeLo], mtime := 0x1010, mtimecmp := 0x00000000FFFFFFFF
       sFin := 0x1010, schedule := [.foreground] }
     s.cfg.legal = true ∧ s.cfg.admits ⟨s.cfg.addrMtimecmpLo, 4, .write⟩ = true ∧ s.fault = none ∧
     s.sPhase = .s7 ∧ s.schedule = .foreground :: [] ∧
     s.mtimecmp = join (hi32 s.sFin) 0xFFFFFFFF ∧ s.matchNow = false ∧ s.sFin.toNat ≤ s.mtime.toNat) := by decide

end Sys2Proof.Tests
end

section
/-! PROOFS. The nibble of a digit (R14): its value as arithmetic, and as the bits of VALUE it is. -/

namespace Sys2Proof.Machine

/-- The mask `0xF` of R14 keeps the remainder modulo 16, so the nibble is a quotient's last hexadecimal digit. -/
theorem toNat_nib (v : Half) (i : BitVec 2) :
    (nib v i).toNat = v.toNat / 2 ^ (4 * i.toNat) % 16 := by
  have mask (n : Nat) : n &&& 15 = n % 16 := Nat.and_two_pow_sub_one_eq_mod n 4
  simp [nib, mask, Nat.shiftRight_eq_div_pow, Nat.mul_comm]

/-- The bit lane of R14: digit `i` reads bits 4i+3 to 4i of VALUE. -/
theorem nib_eq_extractLsb' (v : Half) (i : BitVec 2) : nib v i = v.extractLsb' (4 * i.toNat) 4 := by
  apply BitVec.eq_of_toNat_eq
  rw [toNat_nib, BitVec.extractLsb'_toNat, Nat.shiftRight_eq_div_pow]

/-- Settles O31: the four lanes are the bit lane of R14 at each digit. -/
theorem nibbleLanes : Obligations.NibbleLanes := by
  intro v
  exact ⟨nib_eq_extractLsb' v 0, nib_eq_extractLsb' v 1, nib_eq_extractLsb' v 2, nib_eq_extractLsb' v 3, toNat_nib v⟩

end Sys2Proof.Machine
end

section
/-! PROOFS. What the draws, a step of ARM and each agent's update leave unchanged: one equation each, which names the
fields that may change. -/

namespace Sys2Proof.Machine

theorem takeCommand_frame (s : State) :
    (takeCommand s).2 = { s with hostQueue := (takeCommand s).2.hostQueue, draws := (takeCommand s).2.draws } := by
  obtain ⟨q, n, hq⟩ := takeCommand_snd s
  rw [hq]

theorem drawLate_frame (s : State) :
    (drawLate s).2 = { s with lateDraws := (drawLate s).2.lateDraws, draws := (drawLate s).2.draws } := by
  obtain ⟨l, n, hl⟩ := drawLate_snd s
  rw [hl]

variable {s t : State} {count : Word}

theorem ArmUpdate.frame (h : ArmUpdate count s t) :
    t = { s with
      gie := t.gie, mtimecmp := t.mtimecmp, sCount := t.sCount, sLo := t.sLo, sHi := t.sHi, sFin := t.sFin
      sSaved := t.sSaved, fgPhase := t.fgPhase, bgPhase := t.bgPhase, sPhase := t.sPhase, fault := t.fault } := by
  cases h <;> rfl

theorem AgentUpdate.host_frame (h : AgentUpdate s .host t) :
    t = { s with
      fgPhase := t.fgPhase, fault := t.fault, refused := t.refused, refusalLog := t.refusalLog
      opValue := t.opValue, opRate := t.opRate, opDp := t.opDp, hostQueue := t.hostQueue, draws := t.draws } := by
  cases h <;> rw [takeCommand_frame] <;> rfl

theorem AgentUpdate.foreground_frame (h : AgentUpdate s .foreground t) :
    t = { s with
      value := t.value, dpMask := t.dpMask, index := t.index, refreshTicks := t.refreshTicks
      attached := t.attached, late := t.late, gie := t.gie, mtimecmp := t.mtimecmp
      sCount := t.sCount, sLo := t.sLo, sHi := t.sHi, sFin := t.sFin, sSaved := t.sSaved
      fgPhase := t.fgPhase, bgPhase := t.bgPhase, sPhase := t.sPhase, sCaller := t.sCaller, fault := t.fault
      lateDraws := t.lateDraws, draws := t.draws } := by
  cases h with
  | armFg _ _ _ hu => rw [hu.frame]
  | sp1 => rw [drawLate_frame]
  | _ => rfl

theorem AgentUpdate.background_frame (h : AgentUpdate s .background t) :
    t = { s with
      index := t.index, gpioDigit := t.gpioDigit, gpioSeg := t.gpioSeg, gie := t.gie, mtimecmp := t.mtimecmp
      sCount := t.sCount, sLo := t.sLo, sHi := t.sHi, sFin := t.sFin, sSaved := t.sSaved
      fgPhase := t.fgPhase, bgPhase := t.bgPhase, sPhase := t.sPhase, sCaller := t.sCaller, fault := t.fault } := by
  cases h with
  | armBg _ _ _ hu => rw [hu.frame]
  | _ => rfl

end Sys2Proof.Machine
end

section
/-! PROOFS. When each agent is enabled (R128, R114), and the invariant of Safety.lean: each of its six parts is kept by
a step of ARM and by every enabled agent's update. -/

namespace Sys2Proof.Machine

variable {s t : State} {a : Agent}

/-! ## Enabled agents -/

theorem State.enabled_host_iff : s.enabled .host = true ↔ s.fault = none ∧ s.fgPhase = .idle ∧ s.bgPhase = .none := by
  simp [State.enabled, State.inBackground, and_assoc]

theorem State.enabled_foreground_iff :
    s.enabled .foreground = true ↔ s.fault = none ∧ s.fgPhase ≠ .idle ∧ s.bgPhase = .none := by
  simp [State.enabled, State.inBackground, and_assoc]

theorem State.enabled_background_iff : s.enabled .background = true ↔ s.fault = none ∧ s.bgPhase ≠ .none := by
  simp [State.enabled, State.inBackground]

theorem State.enabled_deliver_iff :
    s.enabled .deliver = true ↔ s.fault = none ∧ s.pending = true ∧ s.gie = true ∧
      (s.attached = true ∨ s.late = true) ∧ s.bgPhase = .none ∧ s.sPhase = .off := by
  simp [State.enabled, State.deliveryEnabled, State.inBackground, State.atBoundary, and_assoc]

/-! ## Whose scheduler run it is -/

/-- Outside A_ARM and T_ARM the scheduler is off. -/
theorem State.CallInv.off (hc : s.CallInv) (hbg : s.bgPhase ≠ .tArm)
    (hfg : s.bgPhase ≠ .none ∨ s.fgPhase ≠ .aArm) : s.sPhase = .off := by
  by_contra hp
  rcases hc hp with ⟨-, hn, ha⟩ | ⟨-, ht⟩
  · exact hfg.elim (· hn) (· ha)
  · exact hbg ht

/-- A run of START's holds the foreground at A_ARM, with no TICK in progress. -/
theorem State.CallInv.start (hc : s.CallInv) (hp : s.sPhase ≠ .off) (hf : s.sCaller = .fg) :
    s.bgPhase = .none ∧ s.fgPhase = .aArm := by
  simpa [hf] using hc hp

/-- A run of TICK's holds the background at T_ARM. -/
theorem State.CallInv.tick (hc : s.CallInv) (hp : s.sPhase ≠ .off) (hb : s.sCaller = .bg) : s.bgPhase = .tArm := by
  simpa [hb] using hc hp

/-! ## Masking -/

theorem ArmUpdate.maskInv {count : Word} (hm : s.MaskInv) (hc : s.CallInv) (h : ArmUpdate count s t) : t.MaskInv := by
  obtain ⟨hbg, hcrit, hsaved⟩ := hm
  cases h with
  | s1 => exact ⟨fun hb => ⟨rfl, (hbg hb).2⟩, fun _ _ => rfl, fun hb _ _ => (hbg hb).1⟩
  | s8fg hp hf =>
    have hnone : s.bgPhase = .none := (hc.start (by simp [hp]) hf).1
    exact ⟨fun hb => absurd hnone hb, fun ho => absurd rfl ho, fun _ ho => absurd rfl ho⟩
  | s8bg hp hb =>
    have hback : s.bgPhase ≠ .none := by simp [hc.tick (by simp [hp]) hb]
    exact ⟨fun _ => ⟨hsaved hback (by simp [hp]) (by simp [hp]), (hbg hback).2⟩, fun ho => absurd rfl ho,
      fun _ ho => absurd rfl ho⟩
  | busFault => exact ⟨hbg, hcrit, hsaved⟩
  | _ hp => exact ⟨hbg, fun _ _ => hcrit (by simp [hp]) (by simp [hp]),
      fun hb _ _ => hsaved hb (by simp [hp]) (by simp [hp])⟩

theorem AgentUpdate.maskInv (hm : s.MaskInv) (hc : s.CallInv) (he : s.enabled a = true) (h : AgentUpdate s a t) :
    t.MaskInv := by
  cases a with
  | host => rw [h.host_frame]; exact hm
  | foreground =>
    cases h with
    | aArm => exact ⟨hm.1, fun _ h1 => absurd rfl h1, fun _ _ h1 => absurd rfl h1⟩
    | armFg _ _ _ hu => exact hu.maskInv hm hc
    | sp1 => rw [drawLate_frame]; exact hm
    | _ => exact hm
  | background =>
    obtain ⟨-, hb⟩ := State.enabled_background_iff.1 he
    obtain ⟨hbg, hcrit, hsaved⟩ := hm
    cases h with
    | tArm => exact ⟨hbg, fun _ h1 => absurd rfl h1, fun _ _ h1 => absurd rfl h1⟩
    | armBg _ _ _ hu => exact hu.maskInv ⟨hbg, hcrit, hsaved⟩ hc
    | tx hp =>
      have hoff : s.sPhase = .off := hc.off (by simp [hp]) (.inl hb)
      exact ⟨fun hn => absurd rfl hn, fun ho => absurd hoff ho, fun hn => absurd rfl hn⟩
    | tickFault => exact ⟨hbg, hcrit, hsaved⟩
    | _ => exact ⟨fun _ => hbg hb, hcrit, fun _ => hsaved hb⟩
  | deliver =>
    cases h
    obtain ⟨-, -, hg, -, -, hoff⟩ := State.enabled_deliver_iff.1 he
    exact ⟨fun _ => ⟨rfl, hg⟩, fun ho => absurd hoff ho, fun _ ho => absurd hoff ho⟩
  | _ => cases h; exact hm

/-! ## Calling -/

theorem ArmUpdate.callInv {count : Word} (hc : s.CallInv) (h : ArmUpdate count s t) : t.CallInv := by
  cases h with
  | s8fg | s8bg => exact fun ho => absurd rfl ho
  | busFault => exact hc
  | _ hp => exact fun _ => hc (by simp [hp])

theorem AgentUpdate.callInv (hc : s.CallInv) (he : s.enabled a = true) (h : AgentUpdate s a t) : t.CallInv := by
  cases a with
  | host =>
    obtain ⟨-, hi, hn⟩ := State.enabled_host_iff.1 he
    have hoff := hc.off (by simp [hn]) (.inr (by simp [hi]))
    rw [h.host_frame]
    exact fun ho => absurd hoff ho
  | foreground =>
    obtain ⟨-, -, hn⟩ := State.enabled_foreground_iff.1 he
    cases h with
    | aArm hp => exact fun _ => .inl ⟨rfl, hn, hp⟩
    | armFg _ _ _ hu => exact hu.callInv hc
    | sp1 hp =>
      rw [drawLate_frame]
      exact fun ho => absurd (hc.off (by simp [hn]) (.inr (by simp [hp]))) ho
    | rs1 hp | rs2 hp | rs3 hp | rs4 hp | v1 hp | v2 hp | aAtt hp =>
      exact fun ho => absurd (hc.off (by simp [hn]) (.inr (by simp [hp]))) ho
  | background =>
    obtain ⟨-, hb⟩ := State.enabled_background_iff.1 he
    cases h with
    | tArm hp => exact fun _ => .inr ⟨rfl, hp⟩
    | armBg _ _ _ hu => exact hu.callInv hc
    | tickFault => exact hc
    | t1 hp | t2 hp | t3 hp | tx hp => exact fun ho => absurd (hc.off (by simp [hp]) (.inl hb)) ho
  | deliver =>
    cases h
    obtain ⟨-, -, -, -, -, hoff⟩ := State.enabled_deliver_iff.1 he
    exact fun ho => absurd hoff ho
  | _ => cases h; exact hc

/-! ## The comparator -/

theorem ArmUpdate.comparatorInv (hcmp : s.ComparatorInv) (h : ArmUpdate s.refreshTicks s t) : t.ComparatorInv := by
  obtain ⟨hcount, hfin, h6, h7, h8⟩ := hcmp
  unfold State.ComparatorInv
  cases h with
  | busFault => exact ⟨hcount, hfin, h6, h7, h8⟩
  | s5 hp => simp_all [sentinel]
  | s6 hp => simp_all [withHi]
  | s7 hp => simp_all [withLo]
  | _ hp => simp_all [deadline]

theorem AgentUpdate.comparatorInv (hcmp : s.ComparatorInv) (hc : s.CallInv) (he : s.enabled a = true)
    (h : AgentUpdate s a t) : t.ComparatorInv := by
  cases a with
  | host => rw [h.host_frame]; exact hcmp
  | foreground =>
    obtain ⟨-, -, hn⟩ := State.enabled_foreground_iff.1 he
    cases h with
    | aArm => simp [State.ComparatorInv]
    | armFg _ _ _ hu => exact hu.comparatorInv hcmp
    | sp1 hp => rw [drawLate_frame]; exact hcmp
    | rs4 hp =>
      have hoff : s.sPhase = .off := hc.off (by simp [hn]) (.inr (by simp [hp]))
      simp [State.ComparatorInv, hoff]
    | _ => exact hcmp
  | background =>
    cases h with
    | tArm => simp [State.ComparatorInv]
    | armBg _ _ _ hu => exact hu.comparatorInv hcmp
    | _ => exact hcmp
  | _ => cases h; exact hcmp

/-! ## Attachment -/

theorem ArmUpdate.attachInv {count : Word} (ha : s.AttachInv) (hc : s.CallInv) (h : ArmUpdate count s t) :
    t.AttachInv := by
  cases h with
  | s8fg hp hf =>
    obtain ⟨hlate, hstart, -⟩ := ha
    exact ⟨hlate, fun _ => hstart (.inl (hc.start (by simp [hp]) hf).2), by simp⟩
  | _ => exact ha

theorem AgentUpdate.attachInv (ha : s.AttachInv) (hc : s.CallInv) (he : s.enabled a = true)
    (h : AgentUpdate s a t) : t.AttachInv := by
  obtain ⟨hlate, hstart, hstop⟩ := ha
  cases a with
  | host =>
    have hkept : (takeCommand s).2.AttachInv := by rw [takeCommand_frame]; exact ⟨hlate, hstart, hstop⟩
    have hattached : (takeCommand s).2.attached = s.attached := by rw [takeCommand_frame]
    cases h with
    | issueReset | issueSetval => exact ⟨hkept.1, by simp, by simp⟩
    | issueStart hd => exact ⟨hkept.1, fun _ => hattached.trans hd, by simp⟩
    | issueStop ht => exact ⟨hkept.1, by simp, fun _ => hattached.trans ht⟩
    | _ => exact hkept
  | foreground =>
    cases h with
    | armFg _ _ _ hu => exact hu.attachInv ⟨hlate, hstart, hstop⟩ hc
    | sp1 => simp [State.AttachInv]
    | aArm => exact ⟨hlate, hstart, hstop⟩
    | aAtt => simp [State.AttachInv]
    | _ => exact ⟨hlate, by simp, by simp⟩
  | background =>
    cases h with
    | armBg _ _ _ hu => exact hu.attachInv ⟨hlate, hstart, hstop⟩ hc
    | _ => exact ⟨hlate, hstart, hstop⟩
  | deliver => cases h; exact ⟨fun hat => by simp [hlate hat], hstart, hstop⟩
  | _ => cases h; exact ⟨hlate, hstart, hstop⟩

/-! ## The ports -/

/-- Outside a TICK nothing is asked of the ports. -/
theorem State.portInv_of_none (h : s.bgPhase = .none) : s.PortInv := by
  simp [State.PortInv, h]

theorem ArmUpdate.portInv {count : Word} (hports : s.PortInv) (hc : s.CallInv) (h : ArmUpdate count s t) :
    t.PortInv := by
  cases h with
  | s8bg hp hb =>
    obtain ⟨-, -, hrendered⟩ := hports
    exact ⟨by simp, by simp, fun _ => hrendered (.inl (hc.tick (by simp [hp]) hb))⟩
  | _ => exact hports

theorem AgentUpdate.portInv (hports : s.PortInv) (hc : s.CallInv) (he : s.enabled a = true)
    (h : AgentUpdate s a t) : t.PortInv := by
  cases a with
  | host => rw [h.host_frame]; exact hports
  | foreground =>
    obtain ⟨-, -, hn⟩ := State.enabled_foreground_iff.1 he
    cases h with
    | armFg _ _ _ hu => exact hu.portInv hports hc
    | sp1 => rw [drawLate_frame]; exact hports
    | _ => exact State.portInv_of_none hn
  | background =>
    obtain ⟨hdigit, hseg, hrendered⟩ := hports
    cases h with
    | armBg _ _ _ hu => exact hu.portInv ⟨hdigit, hseg, hrendered⟩ hc
    | t1 => exact ⟨fun _ => rfl, by simp, by simp⟩
    | t2 hp => exact ⟨fun _ => hdigit (.inl hp), fun _ => rfl, by simp⟩
    | t3 hp => exact ⟨by simp, by simp, fun _ => by simpa using ⟨hdigit (.inr hp), hseg hp⟩⟩
    | tx => exact State.portInv_of_none rfl
    | _ => exact ⟨hdigit, hseg, hrendered⟩
  | deliver => cases h; simp [State.PortInv]
  | _ => cases h; exact hports

/-! ## Operands, interval and marks -/

/-- The quotient of R76 never exceeds TIMER_RESOLUTION. -/
theorem toNat_interval_le (resolution rate : Word) : (interval resolution rate).toNat ≤ resolution.toNat := by
  rw [interval, BitVec.toNat_udiv]
  exact Nat.div_le_self _ _

theorem State.MarkInv.recordFault (h : s.MarkInv) (code : FaultCode) (info : FaultInfo) :
    (s.recordFault code info).MarkInv := by
  obtain ⟨hrate, -, hmark⟩ := h
  exact ⟨hrate, fun _ hnone => by simp at hnone, hmark⟩

theorem State.MarkInv.recordRefusal (h : s.MarkInv) (reason : RefuseReason) : (s.recordRefusal reason).MarkInv := by
  obtain ⟨hrate, hinterval, -⟩ := h
  exact ⟨hrate, hinterval, by simp⟩

/-- A command past RESET's steps asks nothing of the rate kept for it. -/
theorem State.MarkInv.leave_reset (h : s.MarkInv) {p : FgPhase}
    (hp : ¬ (p = .rs1 ∨ p = .rs2 ∨ p = .rs3 ∨ p = .rs4)) : State.MarkInv { s with fgPhase := p } := by
  obtain ⟨-, hinterval, hmark⟩ := h
  exact ⟨fun hr => absurd hr hp, hinterval, hmark⟩

theorem ArmUpdate.markInv {count : Word} (hm : s.MarkInv) (h : ArmUpdate count s t) : t.MarkInv := by
  cases h with
  | s8fg => exact hm.leave_reset (p := .aAtt) (by simp)
  | busFault => exact hm.recordFault _ _
  | _ => exact hm

theorem AgentUpdate.markInv (hm : s.MarkInv) (h : AgentUpdate s a t) : t.MarkInv := by
  have ⟨hrate, hinterval, hmark⟩ := hm
  cases a with
  | host =>
    have hm' : (takeCommand s).2.MarkInv := by rw [takeCommand_frame]; exact hm
    cases h with
    | refuse => exact hm'.recordRefusal _
    | faultAtIssue => exact hm'.recordFault _ _
    | issueReset _ _ _ hr => exact ⟨fun _ => hr, hm'.2⟩
    | issueSetval => exact hm'.leave_reset (p := .v1) (by simp)
    | issueStart => exact hm'.leave_reset (p := .aArm) (by simp)
    | issueStop => exact hm'.leave_reset (p := .sp1) (by simp)
    | stopDetached => exact hm'
  | foreground =>
    cases h with
    | rs1 hp => exact ⟨fun _ => hrate (.inl hp), hinterval, hmark⟩
    | rs2 hp => exact ⟨fun _ => hrate (.inr (.inl hp)), hinterval, hmark⟩
    | rs3 hp => exact ⟨fun _ => hrate (.inr (.inr (.inl hp))), hinterval, hmark⟩
    | rs4 => exact ⟨by simp, fun _ _ => toNat_interval_le _ _, hmark⟩
    | v1 => exact hm.leave_reset (p := .v2) (by simp)
    | armFg _ _ _ hu => exact hu.markInv hm
    | aArm => exact hm
    | sp1 => rw [drawLate_frame]; exact hm.leave_reset (p := .idle) (by simp)
    | _ => exact hm.leave_reset (p := .idle) (by simp)
  | background =>
    cases h with
    | armBg _ _ _ hu => exact hu.markInv hm
    | tickFault => exact hm.recordFault _ _
    | _ => exact hm
  | _ => cases h; exact hm

/-- An enabled agent's update keeps the invariant. -/
theorem AgentUpdate.inv (hi : s.Inv) (he : s.enabled a = true) (h : AgentUpdate s a t) : t.Inv := by
  obtain ⟨hmask, hcall, hcmp, hatt, hports, hmark⟩ := hi
  exact ⟨h.maskInv hmask hcall he, h.callInv hcall he, h.comparatorInv hcmp hcall he, h.attachInv hatt hcall he,
    h.portInv hports hcall he, h.markInv hmark⟩

/-- The invariant does not read PENDING, all that the latch changes. -/
@[simp] theorem State.latchEdge_inv : (s.latchEdge t).Inv ↔ t.Inv := Iff.rfl

/-- Settles O44: the invariant reads neither the draws nor PENDING, and each enabled agent's update keeps it. -/
theorem stepKeepsInv : Obligations.StepKeepsInv := by
  intro s t hi h
  revert hi
  apply step_property h
  · exact fun _ _ _ hkept hi => hkept hi
  · exact fun _ _ hi => hi
  · exact fun u a v _ _ he hv hi => State.latchEdge_inv.2 (hv.inv hi he)

end Sys2Proof.Machine
end

section
/-! PROOFS. Who writes each register, and what: one lemma per register over the agents' updates. -/

namespace Sys2Proof.Machine

variable {s t : State} {a : Agent} {count : Word}

/-! ## FAULT, REFUSED and the parameters -/

/-- In a faulted state only the counter moves (R109). -/
theorem State.enabled_of_fault {f : FaultRecord} (hf : s.fault = some f) (he : s.enabled a = true) : a = .counter := by
  cases a <;> simp [State.enabled, State.deliveryEnabled, hf] at he ⊢

theorem AgentUpdate.fault_kept {f : FaultRecord} (he : s.enabled a = true) (h : AgentUpdate s a t)
    (hf : s.fault = some f) : t.fault = some f := by
  obtain rfl := State.enabled_of_fault hf he
  cases h
  exact hf

/-- A refusal of the host's command is the one update of REFUSED and of the recorded reasons (R70). -/
theorem AgentUpdate.refusals (h : AgentUpdate s a t) :
    (t.refused = s.refused ∧ t.refusalLog = s.refusalLog) ∨
      (t.refused = true ∧ ∃ reason, t.refusalLog = s.refusalLog ++ [reason]) := by
  cases a with
  | host =>
    have hrefused : (takeCommand s).2.refused = s.refused := by rw [takeCommand_frame]
    have hlog : (takeCommand s).2.refusalLog = s.refusalLog := by rw [takeCommand_frame]
    cases h with
    | refuse reason => exact .inr ⟨rfl, reason, by simp [hlog]⟩
    | _ => exact .inl ⟨hrefused, hlog⟩
  | foreground => rw [h.foreground_frame]; exact .inl ⟨rfl, rfl⟩
  | background => rw [h.background_frame]; exact .inl ⟨rfl, rfl⟩
  | _ => cases h; exact .inl ⟨rfl, rfl⟩

theorem AgentUpdate.cfg_kept (h : AgentUpdate s a t) : t.cfg = s.cfg := by
  cases a with
  | host => rw [h.host_frame]
  | foreground => rw [h.foreground_frame]
  | background => rw [h.background_frame]
  | _ => cases h; rfl

/-- Settles O51: a fault leaves the counter alone enabled, and only a refusal touches REFUSED and its log. -/
theorem marksAreSticky : Obligations.MarksAreSticky := by
  intro s t h
  apply step_property h
  · exact fun _ _ _ hkept => hkept
  · exact fun _ _ => ⟨fun _ hf => hf, id, ⟨[], by simp⟩, rfl⟩
  · refine fun u a v _ _ he hv => ⟨fun f hf => (hv.fault_kept he hf :), ?_, ?_, hv.cfg_kept⟩
    · rcases hv.refusals with ⟨hr, -⟩ | ⟨hr, -⟩ <;> simp [hr]
    · rcases hv.refusals with ⟨-, hlog⟩ | ⟨-, reason, hlog⟩
      · exact ⟨[], by simp [hlog]⟩
      · exact ⟨[reason], by simp [hlog]⟩

/-! ## The display registers -/

/-- The registers that the foreground alone writes. -/
theorem AgentUpdate.display_kept (h : AgentUpdate s a t) (ha : a ≠ .foreground) :
    t.value = s.value ∧ t.dpMask = s.dpMask ∧ t.refreshTicks = s.refreshTicks ∧ t.attached = s.attached := by
  cases a with
  | host => rw [h.host_frame]; exact ⟨rfl, rfl, rfl, rfl⟩
  | foreground => exact absurd rfl ha
  | background => rw [h.background_frame]; exact ⟨rfl, rfl, rfl, rfl⟩
  | _ => cases h; exact ⟨rfl, rfl, rfl, rfl⟩

/-- What the foreground writes in these registers, in which of its phases, and outside a TICK. -/
theorem AgentUpdate.display_changed (he : s.enabled a = true) (h : AgentUpdate s a t) :
    (t.value ≠ s.value → s.bgPhase = .none ∧ (s.fgPhase = .rs1 ∨ s.fgPhase = .v1) ∧ t.value = s.opValue) ∧
    (t.dpMask ≠ s.dpMask → s.bgPhase = .none ∧ (s.fgPhase = .rs2 ∨ s.fgPhase = .v2) ∧ t.dpMask = s.opDp) ∧
    (t.refreshTicks ≠ s.refreshTicks → s.bgPhase = .none ∧ s.fgPhase = .rs4 ∧
      t.refreshTicks = s.cfg.timerResolution / s.opRate) ∧
    (t.attached ≠ s.attached → s.bgPhase = .none ∧
      ((s.fgPhase = .aAtt ∧ t.attached = true) ∨ (s.fgPhase = .sp1 ∧ t.attached = false))) := by
  by_cases ha : a = .foreground
  · subst ha
    obtain ⟨-, -, hn⟩ := State.enabled_foreground_iff.1 he
    cases h with
    | rs1 hp | rs2 hp | rs3 hp | v1 hp | v2 hp | aArm hp | aAtt hp => simp [hn, hp]
    | rs4 hp => simp [hn, hp, interval]
    | armFg _ _ _ hu => rw [hu.frame]; simp
    | sp1 hp => rw [drawLate_frame]; simp [hn, hp]
  · obtain ⟨hvalue, hmask, hticks, hattached⟩ := h.display_kept ha
    simp [hvalue, hmask, hticks, hattached]

/-- RESET's RS3 clears INDEX and TICK's T3 advances it. -/
theorem AgentUpdate.index_changed (he : s.enabled a = true) (h : AgentUpdate s a t) (hc : t.index ≠ s.index) :
    (s.bgPhase = .none ∧ s.fgPhase = .rs3 ∧ t.index = 0) ∨ (s.bgPhase = .t3 ∧ t.index = s.index + 1) := by
  cases a with
  | host => exact absurd (by rw [h.host_frame]) hc
  | foreground =>
    cases h with
    | rs3 hp => exact .inl ⟨(State.enabled_foreground_iff.1 he).2.2, hp, rfl⟩
    | armFg _ _ _ hu => exact absurd (by rw [hu.frame]) hc
    | sp1 => exact absurd (by rw [drawLate_frame]) hc
    | _ => exact absurd rfl hc
  | background =>
    cases h with
    | t3 hp => exact .inr ⟨hp, rfl⟩
    | armBg _ _ _ hu => exact absurd (by rw [hu.frame]) hc
    | _ => exact absurd rfl hc
  | _ => cases h; exact absurd rfl hc

/-- Settles O52: the foreground's four registers, and INDEX, which the background's T3 writes too. -/
theorem displayOwnership : Obligations.DisplayOwnership := by
  intro s t h
  apply step_property h
  · exact fun _ _ _ howned => howned
  · simp
  · intro u a v _ _ he hv
    obtain ⟨hvalue, hmask, hticks, hattached⟩ := hv.display_changed he
    exact ⟨hvalue, hmask, (hv.index_changed he :), hticks, hattached⟩

/-! ## The ports -/

/-- The ports are the background's, a byte in T1 and one in T2. -/
theorem AgentUpdate.ports (h : AgentUpdate s a t) :
    (t.gpioDigit ≠ s.gpioDigit → s.bgPhase = .t1 ∧ t.gpioDigit = oneHot s.index) ∧
    (t.gpioSeg ≠ s.gpioSeg → s.bgPhase = .t2 ∧ t.gpioSeg = segByte s.value s.dpMask s.index) := by
  cases a with
  | host => rw [h.host_frame]; simp
  | foreground => rw [h.foreground_frame]; simp
  | background =>
    cases h with
    | t1 hp | t2 hp => simp [hp]
    | armBg _ _ _ hu => rw [hu.frame]; simp
    | _ => simp
  | _ => cases h; simp

/-- Settles O53 from the background's two port writes. -/
theorem portOwnership : Obligations.PortOwnership := by
  intro s t h
  apply step_property h
  · exact fun _ _ _ howned => howned
  · simp
  · exact fun u a v _ _ _ hv => hv.ports

/-! ## The timer -/

theorem AgentUpdate.mtime_changed (h : AgentUpdate s a t) (hc : t.mtime ≠ s.mtime) : t = s.advanceCounter := by
  cases a with
  | host => exact absurd (by rw [h.host_frame]) hc
  | foreground => exact absurd (by rw [h.foreground_frame]) hc
  | background => exact absurd (by rw [h.background_frame]) hc
  | counter => cases h; rfl
  | deliver | drop => cases h; exact absurd rfl hc

/-- The write sequence of R103 to R105, a half at a time. -/
def ArmWrites (s t : State) : Prop :=
  (s.sPhase = .s5 ∧ t.mtimecmp = withLo s.mtimecmp sentinel) ∨
  (s.sPhase = .s6 ∧ t.mtimecmp = withHi s.mtimecmp (hi32 s.sFin)) ∨
  (s.sPhase = .s7 ∧ t.mtimecmp = withLo s.mtimecmp (lo32 s.sFin))

theorem ArmUpdate.mtimecmp_changed (h : ArmUpdate count s t) (hc : t.mtimecmp ≠ s.mtimecmp) : ArmWrites s t := by
  cases h with
  | s5 hp => exact .inl ⟨hp, rfl⟩
  | s6 hp => exact .inr (.inl ⟨hp, rfl⟩)
  | s7 hp => exact .inr (.inr ⟨hp, rfl⟩)
  | _ => exact absurd rfl hc

theorem AgentUpdate.mtimecmp_changed (h : AgentUpdate s a t) (hc : t.mtimecmp ≠ s.mtimecmp) : ArmWrites s t := by
  cases a with
  | host => exact absurd (by rw [h.host_frame]) hc
  | foreground =>
    cases h with
    | armFg _ _ _ hu => exact hu.mtimecmp_changed hc
    | sp1 => exact absurd (by rw [drawLate_frame]) hc
    | _ => exact absurd rfl hc
  | background =>
    cases h with
    | armBg _ _ _ hu => exact hu.mtimecmp_changed hc
    | _ => exact absurd rfl hc
  | _ => cases h; exact absurd rfl hc

/-- Settles O54: MTIME's writer is the counter, whose latched update is the whole next state. -/
theorem timerOwnership : Obligations.TimerOwnership := by
  intro s t h
  apply step_property h
  · exact fun _ _ _ howned => howned
  · simp
  · refine fun u a v _ _ _ hv => ⟨fun hc => ?_, fun hc => hv.mtimecmp_changed hc⟩
    rw [hv.mtime_changed hc]
    rfl

/-! ## GIE -/

/-- The critical section's two ends, S1 and S8 (R99, R106). -/
theorem ArmUpdate.gie_changed (h : ArmUpdate count s t) (hc : t.gie ≠ s.gie) :
    (s.sPhase = .s1 ∧ t.sPhase = .s2 ∧ t.gie = false ∧ t.sSaved = s.gie) ∨
    (s.sPhase = .s8 ∧ t.sPhase = .off ∧ t.gie = s.sSaved) := by
  cases h with
  | s1 hp => exact .inl ⟨hp, rfl, rfl, rfl⟩
  | s8fg hp | s8bg hp => exact .inr ⟨hp, rfl, rfl⟩
  | _ => exact absurd rfl hc

theorem AgentUpdate.gie_changed (he : s.enabled a = true) (h : AgentUpdate s a t) (hc : t.gie ≠ s.gie) :
    (s.sPhase = .s1 ∧ t.sPhase = .s2 ∧ t.gie = false ∧ t.sSaved = s.gie) ∨
    (s.sPhase = .s8 ∧ t.sPhase = .off ∧ t.gie = s.sSaved) ∨
    (s.bgPhase = .none ∧ t.bgPhase = .t1 ∧ t.gie = false ∧ t.irqSavedGie = s.gie) ∨
    (s.bgPhase = .tx ∧ t.bgPhase = .none ∧ t.gie = s.irqSavedGie) := by
  cases a with
  | host => exact absurd (by rw [h.host_frame]) hc
  | foreground =>
    cases h with
    | armFg _ _ _ hu => exact (hu.gie_changed hc).imp_right .inl
    | sp1 => exact absurd (by rw [drawLate_frame]) hc
    | _ => exact absurd rfl hc
  | background =>
    cases h with
    | armBg _ _ _ hu => exact (hu.gie_changed hc).imp_right .inl
    | tx hp => exact .inr (.inr (.inr ⟨hp, rfl, rfl⟩))
    | _ => exact absurd rfl hc
  | deliver =>
    cases h
    obtain ⟨-, -, -, -, hn, -⟩ := State.enabled_deliver_iff.1 he
    exact .inr (.inr (.inl ⟨hn, rfl, rfl, rfl⟩))
  | counter | drop => cases h; exact absurd rfl hc

/-- Settles O55 from the four updates that write GIE. -/
theorem gieOwnership : Obligations.GieOwnership := by
  intro s t h
  apply step_property h
  · exact fun _ _ _ howned => howned
  · simp
  · exact fun u a v _ _ he hv hc => (hv.gie_changed he hc :)

end Sys2Proof.Machine
end

section
/-! PROOFS. The segment byte and the digit select, bit by bit (R24, R88, R90). -/

namespace Sys2Proof.Machine

@[simp] theorem dpBit_no_mask (i : BitVec 2) : dpBit 0 i = 0 := by simp [dpBit]

/-- R90's bit stands at bit 7 alone. -/
theorem dpBit_getLsbD (m : Byte) (i : BitVec 2) (k : Nat) :
    (dpBit m i).getLsbD k = (decide (k = 7) && m.getLsbD i.toNat) := by
  rcases Nat.lt_trichotomy k 7 with hk | rfl | hk
  · simp [dpBit, hk, Nat.ne_of_lt hk]
  · simp [dpBit]
  · simp [dpBit, Nat.ne_of_gt hk, Nat.not_lt.2 hk]

/-- Settles O30: with no mask the segment byte is the table's entry at the nibble. -/
theorem segmentRom : Obligations.SegmentRom := by
  intro v i
  rw [segByte, dpBit_no_mask, segRom, toNat_nib]
  simp [segRomTable]

/-- Settles O32: the ROM leaves bit 7 free, and the decimal point has no other bit. -/
theorem renderedBits : Obligations.RenderedBits := by
  intro v m i
  refine ⟨?_, fun k hk => ?_, fun k hk => ?_⟩
  · rw [segByte, BitVec.getLsbD_or, segRom_bit7, dpBit_getLsbD]
    simp
  · simp [segByte, dpBit_getLsbD, Nat.ne_of_lt hk]
  · simpa using congrArg (· = true) (oneHot_getLsbD i ⟨k, hk⟩)

end Sys2Proof.Machine
end

section
/-! PROOFS. The state after power-on (R41, R131) and the invariant there. -/

namespace Sys2Proof.Machine

/-- Settles O15: each field of `State.powerOn`, FAULT and REFUSED by the legality of the configuration. -/
theorem powerOnState : Obligations.PowerOnState := by
  intro c p hl
  refine ⟨rfl, rfl, rfl, fun hr => ⟨?_, ?_⟩, fun hr => ?_, rfl, rfl, rfl, rfl, rfl, rfl, rfl, rfl, rfl, rfl, rfl, rfl, rfl,
    rfl, rfl, rfl, rfl, rfl, ?_⟩
  · exact if_neg hr
  · exact if_neg fun h => hr h.2
  · exact if_pos ⟨hl, hr⟩
  · simp [State.powerOn, hl]

/-- No RESET is past its issue, the interval is a quotient unless FAULT is set, and the one refusal is recorded. -/
theorem powerOn_markInv (c : Config) (p : PowerOnValues) : (State.powerOn c p).MarkInv := by
  refine ⟨by simp [State.powerOn], fun hl hf => ?_, ?_⟩
  · have hr : c.initRateHz ≠ 0 := fun hr => absurd (hf.symm.trans (if_pos ⟨hl, hr⟩)) (by simp)
    simp only [State.powerOn, if_neg hr]
    exact toNat_interval_le _ _
  · cases hl : c.legal <;> simp [State.powerOn, hl]

/-- At power-on no command, TICK or scheduler run is in progress, and nothing is attached. -/
theorem powerOn_inv (c : Config) (p : PowerOnValues) : (State.powerOn c p).Inv := by
  refine ⟨?mask, ?call, ?comparator, ?attach, State.portInv_of_none rfl, powerOn_markInv c p⟩
  case mask => exact ⟨fun hb => absurd rfl hb, fun ho => absurd rfl ho, fun hb => absurd rfl hb⟩
  case call => exact fun ho => absurd rfl ho
  case comparator => simp [State.ComparatorInv, State.powerOn]
  case attach => simp [State.AttachInv, State.powerOn]

/-- Settles O17: `State.reset` is one of the power-ons. -/
theorem powerOnMeetsInv : Obligations.PowerOnMeetsInv :=
  ⟨powerOn_inv, powerOn_inv _ _⟩

end Sys2Proof.Machine
end

section
/-! PROOFS. The step of a scheduled agent as the one instruction of its phase (R38, R128), and the counter's (R32). -/

namespace Sys2Proof.Machine

/-- Settles O37: the counter is enabled in every state, and its step is latched. -/
theorem counterStep : Obligations.CounterStep := by
  intro s rest hl hs
  exact step_enabled hl hs rfl rfl

/-- The step of a scheduled agent whose step is that of one instruction. -/
theorem step_runs {s : State} {a : Agent} {i : Instr} {rest : List Agent} (hl : s.cfg.legal = true)
    (hs : s.schedule = a :: rest) (he : State.enabled { s with schedule := rest } a = true)
    (hx : agentStep a { s with schedule := rest } = exec i { s with schedule := rest }) :
    step s = latched s (exec i { s with schedule := rest }) := by
  rw [step_scheduled hl hs, runAgent, if_pos he, hx]
  rfl

/-- The instruction of the foreground's phase, as R38 names it. -/
theorem State.foregroundInstr_eq {s : State} {i : Instr}
    (h : (i = .reset s.opValue s.opRate s.opDp ∧
        (s.fgPhase = .rs1 ∨ s.fgPhase = .rs2 ∨ s.fgPhase = .rs3 ∨ s.fgPhase = .rs4)) ∨
      (i = .setval s.opValue s.opDp ∧ (s.fgPhase = .v1 ∨ s.fgPhase = .v2)) ∨
      (i = .start ∧ (s.fgPhase = .aAtt ∨ (s.fgPhase = .aArm ∧ s.sPhase = .off))) ∨
      (i = .arm s.refreshTicks ∧ s.fgPhase = .aArm ∧ s.sPhase ≠ .off) ∨
      (i = .stop ∧ s.fgPhase = .sp1)) : s.foregroundInstr = some i := by
  rcases h with ⟨rfl, hp | hp | hp | hp⟩ | ⟨rfl, hp | hp⟩ | ⟨rfl, hp | ⟨hp, hs⟩⟩ | ⟨rfl, hp, hs⟩ | ⟨rfl, hp⟩ <;>
    simp [State.foregroundInstr, *]

theorem State.backgroundInstr_eq {s : State} {i : Instr}
    (h : (i = .tick ∧ (s.bgPhase = .t1 ∨ s.bgPhase = .t2 ∨ s.bgPhase = .t3 ∨ s.bgPhase = .tx ∨
        (s.bgPhase = .tArm ∧ s.sPhase = .off))) ∨
      (i = .arm s.refreshTicks ∧ s.bgPhase = .tArm ∧ s.sPhase ≠ .off)) : s.backgroundInstr = some i := by
  rcases h with ⟨rfl, hp | hp | hp | hp | ⟨hp, hs⟩⟩ | ⟨rfl, hp, hs⟩ <;> simp [State.backgroundInstr, *]

/-- Settles O48: the instruction of the phase is the one the enabled agent's step runs. -/
theorem stepRunsPhase : Obligations.StepRunsPhase := by
  rintro s _ rest a i hl hs rfl h
  have hrun : step s = latched s (exec i { s with schedule := rest }) := by
    rcases h with ⟨rfl, hf, hn, hi⟩ | ⟨rfl, hf, hi⟩ | ⟨rfl, rfl, he⟩
    · have hx : State.foregroundInstr { s with schedule := rest } = some i := State.foregroundInstr_eq hi
      have hp : s.fgPhase ≠ .idle := by
        intro hp
        simp [State.foregroundInstr, hp] at hx
      exact step_runs hl hs (State.enabled_foreground_iff.2 ⟨hf, hp, hn⟩) (by rw [agentStep, hx]; rfl)
    · have hx : State.backgroundInstr { s with schedule := rest } = some i := State.backgroundInstr_eq hi
      have hp : s.bgPhase ≠ .none := by
        intro hp
        simp [State.backgroundInstr, hp] at hx
      exact step_runs hl hs (State.enabled_background_iff.2 ⟨hf, hp⟩) (by rw [agentStep, hx]; rfl)
    · exact step_runs hl hs he rfl
  rw [hrun]
  cases exec i { s with schedule := rest } <;> rfl

end Sys2Proof.Machine
end

section
/-! PROOFS. The bus (R44 to R51): which accesses the platform admits and what any other records, the bytes of the
address space, and which of them a step can change. -/

namespace Sys2Proof.Machine

variable {s t : State} {a : Nat}

/-! ## Admission -/

/-- Settles O9: the default is membership in the list of R46's six accesses. -/
theorem defaultAdmission : Obligations.DefaultAdmission := by
  intro c hdefault a
  simp [Config.admits, hdefault, Config.sixAccesses]

theorem admits_of_exactlySix {c : Config} (hdefault : c.busAdmit = .exactlySix) {acc : Access}
    (hm : acc ∈ c.sixAccesses) : c.admits acc = true :=
  (defaultAdmission c hdefault acc).2 (by simpa [Config.sixAccesses] using hm)

theorem readThen_not_admitted {step : BusStep} {addr : Nat} {k : Word → State} (hf : s.fault = none)
    (ha : s.cfg.admits ⟨addr, 4, .read⟩ = false) :
    readThen s step addr k = .next { s with fault := some ⟨.busFault, .access ⟨addr, 4, .read⟩ step⟩ } := by
  simp [readThen, memRead, ha, State.recordFault, hf]

theorem writeThen_not_admitted {step : BusStep} {addr : Nat} {v : BusData} {k : State → State} (hf : s.fault = none)
    (ha : s.cfg.admits ⟨addr, v.width, .write⟩ = false) :
    writeThen s step addr v k =
      .next { s with fault := some ⟨.busFault, .access ⟨addr, v.width, .write⟩ step⟩ } := by
  simp [writeThen, memWrite, ha, State.recordFault, hf]

/-- Settles O11: the phase of each clause reads or writes through `readThen` or `writeThen`. -/
theorem busFaultRecorded : Obligations.BusFaultRecorded := by
  intro s count _ hf
  refine ⟨?t1, ?t2, ?s2, ?s3, ?s5, ?s6, ?s7⟩ <;> intro hp ha
  case t1 | t2 => simp [exec, execTick, hp, writeThen_not_admitted hf, BusData.width, ha]
  case s2 | s3 => simp [exec, execArm, hp, readThen_not_admitted hf, ha]
  case s5 | s6 | s7 => simp [exec, execArm, hp, writeThen_not_admitted hf, BusData.width, ha]

/-! ## BUS_FAULT comes from an access that is not admitted -/

theorem ArmUpdate.not_admitted {count : Word} {f : FaultRecord} (h : ArmUpdate count s t) (hf : s.fault = none)
    (ht : t.fault = some f) : ∃ acc ∈ s.cfg.sixAccesses, s.cfg.admits acc = false := by
  cases h with
  | busFault acc _ hm ha => exact ⟨acc, hm, ha⟩
  | _ => exact absurd (hf.symm.trans ht) (by simp)

/-- The steps that make a bus access are the background's and the scheduler's; an issue faults with another code. -/
theorem AgentUpdate.not_admitted {ag : Agent} {f : FaultRecord} (h : AgentUpdate s ag t) (hf : s.fault = none)
    (ht : t.fault = some f) (hc : f.code = .busFault) :
    ∃ acc ∈ s.cfg.sixAccesses, s.cfg.admits acc = false := by
  have htake : (takeCommand s).2.fault = none := by rw [takeCommand_frame]; exact hf
  have hdraw : (drawLate s).2.fault = none := by rw [drawLate_frame]; exact hf
  cases h with
  | tickFault acc _ hm ha => exact ⟨acc, hm, ha⟩
  | armFg _ _ _ hu | armBg _ _ _ hu => exact hu.not_admitted hf ht
  | faultAtIssue code w hcode =>
    simp only [State.recordFault_fault, htake, Option.none_or, Option.some.injEq] at ht
    exact absurd (ht ▸ hc :) hcode
  | refuse | issueReset | issueSetval | issueStart | issueStop | stopDetached =>
    exact absurd (htake.symm.trans ht) (by simp)
  | sp1 => exact absurd (hdraw.symm.trans ht) (by simp)
  | _ => exact absurd (hf.symm.trans ht) (by simp)

/-- Settles O10: BUS_FAULT needs one of the six accesses not admitted, and the default admits them all. -/
theorem defaultNeverBusFaults : Obligations.DefaultNeverBusFaults := by
  intro s t f hdefault hf h
  revert hdefault hf
  apply step_property h
  · exact fun _ _ _ hnever => hnever
  · exact fun _ _ _ hf ht => absurd (hf.symm.trans ht) (by simp)
  · intro u ag v _ _ _ hv hdefault hf ht hc
    obtain ⟨acc, hm, ha⟩ := hv.not_admitted hf ht hc
    exact absurd (admits_of_exactlySix hdefault hm) (by simp [ha])

/-! ## The registers' bytes -/

theorem pairwise_of_allDisjoint {l : List Access} (h : Config.allDisjoint l = true) :
    l.Pairwise (fun x y => x.addr + x.width ≤ y.addr ∨ y.addr + y.width ≤ x.addr) := by
  induction l with
  | nil => exact .nil
  | cons x rest ih =>
    simp only [Config.allDisjoint, Config.disjoint, Bool.and_eq_true, List.all_eq_true, Bool.or_eq_true,
      decide_eq_true_eq] at h
    exact .cons h.1 (ih h.2)

/-- Settles O12: no byte of a register lies in the range of one that `busByte` asks for before it. -/
theorem registerBytes : Obligations.RegisterBytes := by
  intro s hl
  obtain ⟨⟨hd, -⟩, -⟩ := (Config.legal_iff _).1 hl
  replace hd := pairwise_of_allDisjoint hd
  simp only [Config.sixAccesses, List.pairwise_cons, List.forall_mem_cons] at hd
  obtain ⟨⟨digitSeg, digitLo, digitHi, digitCmpLo, digitCmpHi, -⟩, ⟨segLo, segHi, segCmpLo, segCmpHi, -⟩,
    ⟨loHi, loCmpLo, loCmpHi, -⟩, ⟨hiCmpLo, hiCmpHi, -⟩, ⟨cmpLoCmpHi, -⟩, -⟩ := hd
  refine ⟨if_pos rfl, ?seg, fun k hk => ⟨?mtimeLo, ?mtimeHi, ?mtimecmpLo, ?mtimecmpHi⟩⟩ <;> rw [State.busByte]
  case seg => rw [if_neg (by omega), if_pos rfl]
  case mtimeLo =>
    rw [if_neg (by omega), if_neg (by omega), if_pos (by omega), Nat.add_sub_cancel_left, byteOf]
  case mtimeHi =>
    rw [if_neg (by omega), if_neg (by omega), if_neg (by omega), if_pos (by omega), Nat.add_sub_cancel_left, byteOf]
  case mtimecmpLo =>
    rw [if_neg (by omega), if_neg (by omega), if_neg (by omega), if_neg (by omega), if_pos (by omega),
      Nat.add_sub_cancel_left, byteOf]
  case mtimecmpHi =>
    rw [if_neg (by omega), if_neg (by omega), if_neg (by omega), if_neg (by omega), if_neg (by omega),
      if_pos (by omega), Nat.add_sub_cancel_left, byteOf]

/-! ## What a step leaves of the bytes -/

/-- A register is found only at its own row of R46. -/
theorem access_of_busRegAt {c : Config} {acc : Access} {r : BusReg} (h : busRegAt c acc = some r) :
    r.access c = acc := by
  simpa using List.find?_some h

/-- A write changes no byte outside the range it is made at; each half of the comparator keeps the other. -/
theorem memWrite_busByte {addr : Nat} {v : BusData} (h : memWrite s addr v = some t)
    (ha : ¬(addr ≤ a ∧ a < addr + v.width)) : t.busByte a = s.busByte a := by
  unfold memWrite at h
  split at h
  case isFalse => cases h
  case isTrue =>
    split at h
    case h_5 => cases h
    case h_1 | h_2 =>
      cases h
      obtain rfl := congrArg Access.addr (access_of_busRegAt ‹_›)
      have hne : a ≠ _ := fun he => ha ⟨he.ge, he ▸ Nat.lt_succ_self _⟩
      simp only [BusReg.access] at hne
      simp [State.busByte, hne]
    case h_3 | h_4 =>
      cases h
      obtain rfl := congrArg Access.addr (access_of_busRegAt ‹_›)
      simp only [BusReg.access, BusData.width] at ha
      simp [State.busByte, ha]

theorem readThen_busByte {b : BusStep} {addr : Nat} {k : Word → State} (h : readThen s b addr k = .next t)
    (hk : ∀ w, (k w).busByte a = s.busByte a) : t.busByte a = s.busByte a := by
  rcases readThen_cases s b addr k with ⟨w, -, hw⟩ | ⟨-, hw⟩ <;> rw [hw] at h <;> cases h
  · exact hk w
  · rfl

theorem writeThen_busByte {b : BusStep} {addr : Nat} {v : BusData} {k : State → State}
    (h : writeThen s b addr v k = .next t) (hk : ∀ u, (k u).busByte a = u.busByte a)
    (ha : ¬(addr ≤ a ∧ a < addr + v.width)) : t.busByte a = s.busByte a := by
  rcases writeThen_cases s b addr v k with ⟨u, hu, hw⟩ | ⟨-, hw⟩ <;> rw [hw] at h <;> cases h
  · rw [hk, memWrite_busByte hu ha]
  · rfl

theorem callScheduler_busByte {c : Caller} (h : callScheduler c s = .next t) : t.busByte a = s.busByte a := by
  unfold callScheduler at h
  split at h <;> cases h
  rfl

theorem execReset_busByte {value : Half} {rate : Word} {dp : Byte} (h : execReset value rate dp s = .next t) :
    t.busByte a = s.busByte a := by
  unfold execReset at h
  split at h
  case h_1 => split at h <;> cases h <;> rfl
  case h_2 | h_3 | h_4 | h_5 => cases h; rfl
  case h_6 => cases h

theorem execSetval_busByte {value : Half} {dp : Byte} (h : execSetval value dp s = .next t) :
    t.busByte a = s.busByte a := by
  unfold execSetval at h
  split at h <;> cases h <;> rfl

theorem execStart_busByte (h : execStart s = .next t) : t.busByte a = s.busByte a := by
  unfold execStart at h
  split at h
  case h_1 => split at h <;> cases h <;> rfl
  case h_2 => exact callScheduler_busByte h
  case h_3 => cases h; rfl
  case h_4 => cases h

theorem execStop_busByte (h : execStop s = .next t) : t.busByte a = s.busByte a := by
  unfold execStop at h
  split at h
  case h_1 =>
    split at h
    · cases h; rfl
    · split at h <;> cases h <;> rfl
  case h_2 =>
    obtain ⟨l, n, hdraw⟩ := drawLate_snd s
    simp only [hdraw] at h
    cases h
    rfl
  case h_3 => cases h

theorem returnToCaller_busByte : s.returnToCaller.busByte a = s.busByte a := by
  cases hc : s.sCaller
  · rw [State.returnToCaller_fg s hc]; rfl
  · rw [State.returnToCaller_bg s hc]; rfl

/-- TICK stores in T1 and T2. -/
theorem execTick_busByte (h : execTick s = .next t)
    (ha : ∀ acc, storedAccess .tick s = some acc → ¬(acc.addr ≤ a ∧ a < acc.addr + acc.width)) :
    t.busByte a = s.busByte a := by
  unfold execTick at h
  split at h
  case h_2 hp | h_3 hp => exact writeThen_busByte h (fun _ => rfl) (ha _ (by rw [storedAccess, hp]))
  case h_5 => exact callScheduler_busByte h
  case h_1 | h_4 | h_6 => cases h; rfl

/-- ARM stores in S5, S6 and S7. -/
theorem execArm_busByte {count : Word} (h : execArm count s = .next t)
    (ha : ∀ acc, storedAccess (.arm count) s = some acc → ¬(acc.addr ≤ a ∧ a < acc.addr + acc.width)) :
    t.busByte a = s.busByte a := by
  unfold execArm at h
  split at h
  case h_1 => cases h
  case h_3 | h_4 => exact readThen_busByte h (fun _ => rfl)
  case h_6 hp | h_7 hp | h_8 hp => exact writeThen_busByte h (fun _ => rfl) (ha _ (by rw [storedAccess, hp]))
  case h_2 | h_5 => cases h; rfl
  case h_9 => cases h; exact returnToCaller_busByte

/-- Settles O13: the host's commands store nothing, TICK and ARM in their own phases; no overlap of the ranges is
involved, so legality is not used. -/
theorem bytesOutsideStoreUnchanged : Obligations.BytesOutsideStoreUnchanged := by
  intro i s t _ h a ha
  cases i with
  | reset => exact execReset_busByte h
  | setval => exact execSetval_busByte h
  | start => exact execStart_busByte h
  | stop => exact execStop_busByte h
  | tick => exact execTick_busByte h ha
  | arm => exact execArm_busByte h ha

/-! ## Illegal configurations -/

theorem step_of_illegal (h : s.cfg.legal = false) : step s = .refused .badConfig := by
  simp [step, atomicStep, h]

/-- Settles O14: both the step and power-on read `Config.legal`. -/
theorem illegalConfigRefused : Obligations.IllegalConfigRefused :=
  ⟨fun _ => step_of_illegal, fun _ _ h => by simp [State.powerOn, h]⟩

end Sys2Proof.Machine
end

section
/-! PROOFS. The decoder (R64), the encoder (R60) and the assembler (R68): what the decoder answers a word by the row its
opcode selects, and from that the round trips, the refusals and the fields. -/

namespace Sys2Proof

variable {issuer : Issuer} {w : Cmd} {r r' : Row} {i : Instr} {l : AsmLine}

/-! ## Rows -/

/-- A word that matches a row has the opcode that selects it (R63). -/
theorem Row.ofOp_of_matches (h : w &&& r.mask = r.matchBits) : Row.ofOp (opField w) = some r :=
  (Row.ofOp_eq_some _ _).2 ((Row.matches_iff w r).1 h).1

@[simp] theorem Row.row_instr (r : Row) (w : Cmd) : (r.instr w).row = r := by cases r <;> rfl

@[simp] theorem Instr.instr_row_encode (i : Instr) : i.row.instr (encode i) = i := by
  cases i <;> simp [Instr.row, Row.instr, encode]

theorem encode_matches (i : Instr) : encode i &&& i.row.mask = i.row.matchBits := by
  cases i with
  | reset value rate dp => exact Laws.EncodeMatchesRow.reset value rate dp
  | setval value dp => exact Laws.EncodeMatchesRow.setval value dp
  | start => exact Laws.EncodeMatchesRow.start
  | stop => exact Laws.EncodeMatchesRow.stop
  | tick => exact Laws.EncodeMatchesRow.tick
  | arm count => exact Laws.EncodeMatchesRow.arm count

/-- The fields a row's operation does not take are 0 in a word that matches it, so the operation keeps every bit. -/
theorem Row.encode_instr (h : w &&& r.mask = r.matchBits) : encode (r.instr w) = w := by
  obtain ⟨hop, hrsv, hrate, hlow⟩ := (Row.matches_iff w r).1 h
  have hfields : encode (r.instr w) = cmdOf (rateField w) (valueField w) (dpField w) (opField w) := by
    rw [hop, Row.opField_matchBits]
    cases r <;> simp_all [Row.instr, encode]
  rw [hfields, cmdOf_fields hrsv]

/-- R65: a nonzero bit in a field that the word's opcode reserves. -/
def HasReservedBits (w : Cmd) : Prop :=
  w.extractLsb' 60 4 ≠ 0 ∨ (opField w ≠ 1 ∧ opField w ≠ 9 ∧ rateField w ≠ 0) ∨
    (opField w ≠ 1 ∧ opField w ≠ 2 ∧ (valueField w ≠ 0 ∨ dpField w ≠ 0))

theorem Row.matches_iff_not_hasReservedBits (h : Row.ofOp (opField w) = some r) :
    w &&& r.mask = r.matchBits ↔ ¬HasReservedBits w := by
  have hop := (Row.ofOp_eq_some _ _).1 h
  rw [Row.matches_iff, HasReservedBits, hop, Row.opField_matchBits]
  cases r <;> simp

/-- The rows of the block's own operations (R66). -/
theorem Row.wellFormed_instr_iff (h : Row.ofOp (opField w) = some r) :
    (r.instr w).wellFormed issuer = true ↔ ¬(issuer = .host ∧ opField w ∈ [8, 9]) := by
  rw [(Row.ofOp_eq_some _ _).1 h, Row.opField_matchBits]
  cases r <;> simp [Row.instr, Instr.wellFormed, Instr.blockOnly]

/-! ## The decoder -/

theorem decode_of_ofOp_none (h : Row.ofOp (opField w) = none) : decode issuer w = .error .reservedOp := by
  simp [decode, h]

theorem decode_of_not_matches (h : Row.ofOp (opField w) = some r) (hm : w &&& r.mask ≠ r.matchBits) :
    decode issuer w = .error .reservedBits := by
  simp [decode, h, hm]

theorem decode_of_matches (hm : w &&& r.mask = r.matchBits) : decode issuer w =
    if (r.instr w).wellFormed issuer then .ok (r.instr w) else .error .internalOp := by
  simp [decode, Row.ofOp_of_matches hm, hm]

/-- A word decodes to the operation of the row it matches, if the issuer may issue it (R63, R64). -/
theorem exists_row_of_decode_eq_ok (h : decode issuer w = .ok i) :
    ∃ r : Row, w &&& r.mask = r.matchBits ∧ i = r.instr w ∧ i.wellFormed issuer = true := by
  cases hop : Row.ofOp (opField w) with
  | none => simp [decode_of_ofOp_none hop] at h
  | some r =>
    by_cases hm : w &&& r.mask = r.matchBits
    · rw [decode_of_matches hm] at h
      split at h <;> cases h
      exact ⟨r, hm, rfl, by assumption⟩
    · simp [decode_of_not_matches hop hm] at h

theorem decode_encode (issuer : Issuer) (i : Instr) :
    decode issuer (encode i) = if i.wellFormed issuer then .ok i else .error .internalOp := by
  rw [decode_of_matches (encode_matches i), Instr.instr_row_encode]

theorem decode_of_encode_eq (h : encode i = w) (hw : i.wellFormed issuer = true) : decode issuer w = .ok i := by
  rw [← h, decode_encode, if_pos hw]

@[simp] theorem Instr.wellFormed_block (i : Instr) : i.wellFormed .block = true := rfl

/-- Settles O1: the host's refusals are those of TICK and ARM. -/
theorem decodeOfEncode : Obligations.DecodeOfEncode := by
  intro i
  refine ⟨decode_of_encode_eq rfl i.wellFormed_block, ?_⟩
  rw [decode_encode]
  cases i <;> simp [Instr.wellFormed, Instr.blockOnly]

/-- Settles O2: the word matches the row of its instruction, which keeps every bit of it. -/
theorem encodeOfDecode : Obligations.EncodeOfDecode := by
  intro issuer w i h
  obtain ⟨r, hm, rfl, hw⟩ := exists_row_of_decode_eq_ok h
  exact ⟨Row.encode_instr hm, hw⟩

/-- The decoder's four answers, in the order of R64's checks: the opcode, the reserved fields, the issuer. -/
theorem decode_cases (issuer : Issuer) (w : Cmd) :
    (opField w ∉ [1, 2, 3, 4, 8, 9] ∧ decode issuer w = .error .reservedOp) ∨
    (opField w ∈ [1, 2, 3, 4, 8, 9] ∧ HasReservedBits w ∧ decode issuer w = .error .reservedBits) ∨
    (opField w ∈ [1, 2, 3, 4, 8, 9] ∧ ¬HasReservedBits w ∧ (issuer = .host ∧ opField w ∈ [8, 9]) ∧
      decode issuer w = .error .internalOp) ∨
    (opField w ∈ [1, 2, 3, 4, 8, 9] ∧ ¬HasReservedBits w ∧ ¬(issuer = .host ∧ opField w ∈ [8, 9]) ∧
      ∃ i, decode issuer w = .ok i) := by
  cases hrow : Row.ofOp (opField w) with
  | none => exact .inl ⟨(Row.ofOp_eq_none _).1 hrow, decode_of_ofOp_none hrow⟩
  | some r =>
    have hop : opField w ∈ [1, 2, 3, 4, 8, 9] := by
      by_contra hop
      simp [(Row.ofOp_eq_none _).2 hop] at hrow
    have hbits := Row.matches_iff_not_hasReservedBits hrow
    by_cases hm : w &&& r.mask = r.matchBits
    · have hissuer := Row.wellFormed_instr_iff (issuer := issuer) hrow
      by_cases hw : (r.instr w).wellFormed issuer = true
      · exact .inr (.inr (.inr ⟨hop, hbits.1 hm, hissuer.1 hw, _, by rw [decode_of_matches hm, if_pos hw]⟩))
      · exact .inr (.inr (.inl ⟨hop, hbits.1 hm, not_not.1 (mt hissuer.2 hw),
          by rw [decode_of_matches hm, if_neg hw]⟩))
    · exact .inr (.inl ⟨hop, not_not.1 (mt hbits.2 hm), decode_of_not_matches hrow hm⟩)

/-- Settles O3: the answers exclude one another, and TICK and ARM are defined opcodes. -/
theorem decodeRefusals : Obligations.DecodeRefusals := by
  intro issuer w
  change (decode issuer w = .error .reservedOp ↔ opField w ∉ [1, 2, 3, 4, 8, 9]) ∧
    (decode issuer w = .error .reservedBits ↔ opField w ∈ [1, 2, 3, 4, 8, 9] ∧ HasReservedBits w) ∧
    (decode issuer w = .error .internalOp ↔ issuer = .host ∧ opField w ∈ [8, 9] ∧ ¬HasReservedBits w) ∧
    decode issuer w ≠ .error .operandRange ∧ decode issuer w ≠ .error .badConfig
  have hdefined : opField w ∈ [8, 9] → opField w ∈ [1, 2, 3, 4, 8, 9] := fun h =>
    List.mem_append_right [1, 2, 3, 4] h
  rcases decode_cases issuer w with
    ⟨hop, hd⟩ | ⟨hop, hbits, hd⟩ | ⟨hop, hbits, ⟨rfl, hblock⟩, hd⟩ | ⟨hop, hbits, hi, i, hd⟩
  · simp only [hd, hop, mt hdefined hop]
    simp
  · simp only [hd, hop, hbits]
    simp
  · simp only [hd, hop, hbits, hblock]
    simp
  · simp only [hd, hop, hbits, ← and_assoc, hi]
    simp

/-- Settles O4: the opcode selects the row whose operation is decoded. -/
theorem decodeFields : Obligations.DecodeFields := by
  intro issuer w i h
  obtain ⟨r, hm, rfl, -⟩ := exists_row_of_decode_eq_ok h
  have instr_of_op (r' : Row) (hop : opField w = opField r'.matchBits) : r.instr w = r'.instr w := by
    have hr : Row.ofOp (opField w) = some r' := (Row.ofOp_eq_some _ _).2 hop
    rw [Option.some.inj ((Row.ofOp_of_matches hm).symm.trans hr)]
  exact ⟨instr_of_op .reset, instr_of_op .setval, instr_of_op .start, instr_of_op .stop, instr_of_op .tick,
    instr_of_op .arm⟩

/-- Settles O5: the opcode selects one row. -/
theorem rowsDisjoint : Obligations.RowsDisjoint := by
  refine ⟨fun w r r' h h' => ?_, fun issuer w i h => ?_⟩
  · exact Option.some.inj ((Row.ofOp_of_matches h).symm.trans (Row.ofOp_of_matches h'))
  · obtain ⟨r, hm, rfl, -⟩ := exists_row_of_decode_eq_ok h
    rwa [Row.row_instr]

/-! ## The assembler -/

theorem assemble_of_inRange (h : l.inRange = true) : assemble l = .ok (encode l.instr) := by
  simp [assemble, h]

theorem assemble_eq_operandRange_iff : assemble l = .error .operandRange ↔ ¬l.inRange = true := by
  unfold assemble
  split <;> simp_all

/-- A line in range assembles to a word that decodes to its instruction, for an issuer that may issue it. -/
theorem assemble_decodes (h : l.inRange = true) (hw : l.instr.wellFormed issuer = true) :
    ∃ w, assemble l = .ok w ∧ decode issuer w = .ok l.instr :=
  ⟨_, assemble_of_inRange h, decode_of_encode_eq rfl hw⟩

/-- Settles O7: a number that fits its field is the number of its field's value. -/
theorem assembleRange : Obligations.AssembleRange := by
  refine ⟨fun value rate dp => ?reset, fun value dp => ?setval, fun count => ?arm, rfl, rfl, rfl⟩
  case reset =>
    have hin : (AsmLine.reset value rate (some dp)).inRange = true ↔
        value < 2 ^ 16 ∧ rate < 2 ^ 32 ∧ dp < 2 ^ 8 := by simp [AsmLine.inRange, and_assoc]
    refine ⟨assemble_eq_operandRange_iff.trans (not_congr hin), fun h => ?_⟩
    obtain ⟨w, ha, hd⟩ := assemble_decodes (issuer := .host) (hin.2 h) rfl
    obtain ⟨hv, hr, hp⟩ := h
    exact ⟨w, _, _, _, ha, hd, Nat.mod_eq_of_lt hv, Nat.mod_eq_of_lt hr, Nat.mod_eq_of_lt hp⟩
  case setval =>
    have hin : (AsmLine.setval value dp).inRange = true ↔ value < 2 ^ 16 ∧ dp < 2 ^ 8 := by simp [AsmLine.inRange]
    refine ⟨assemble_eq_operandRange_iff.trans (not_congr hin), fun h => ?_⟩
    obtain ⟨w, ha, hd⟩ := assemble_decodes (issuer := .host) (hin.2 h) rfl
    exact ⟨w, _, _, ha, hd, Nat.mod_eq_of_lt h.1, Nat.mod_eq_of_lt h.2⟩
  case arm =>
    have hin : (AsmLine.arm count).inRange = true ↔ count < 2 ^ 32 := by simp [AsmLine.inRange]
    refine ⟨assemble_eq_operandRange_iff.trans (not_congr hin), fun h => ?_⟩
    obtain ⟨w, ha, hd⟩ := assemble_decodes (issuer := .block) (hin.2 h) rfl
    exact ⟨w, _, ha, hd, Nat.mod_eq_of_lt h⟩

/-- Settles O8: each line has the operands of the RESET it stands for, and dp 0 is in range. -/
theorem assemblePseudo : Obligations.AssemblePseudo := by
  intro value rate
  refine ⟨rfl, ?_⟩
  have hin : (AsmLine.construct value rate).inRange = (AsmLine.reset value rate (some 0)).inRange := by
    simp [AsmLine.inRange]
  rw [assemble, assemble, hin]
  rfl

end Sys2Proof
end

section
/-! PROOFS. The worked encodings with the fault of the fourth (R71, R76), and the host's issue of a command that is
refused (R70). -/

namespace Sys2Proof.Machine

theorem exec_reset_rate_zero_of_idle {s : State} (hp : s.fgPhase = .idle) (hf : s.fault = none)
    (value : Half) (dp : Byte) : exec (.reset value 0 dp) s =
      .next { s with fault := some ⟨.divZero, .command (encode (.reset value 0 dp))⟩ } := by
  simp [exec, execReset, hp, State.recordFault, hf]

/-- Settles O6: each word is computed by the encoder, and decodes as the round trip says. -/
theorem workedEncodings : Obligations.WorkedEncodings :=
  ⟨decode_of_encode_eq rfl rfl, rfl, decode_of_encode_eq rfl rfl, rfl, decode_of_encode_eq rfl rfl, rfl,
    decode_of_encode_eq rfl rfl, rfl, fun _ hp hf => exec_reset_rate_zero_of_idle hp hf 0xBEEF 0,
    decode_of_encode_eq rfl rfl, rfl, decode_of_encode_eq rfl rfl, rfl, decode_of_encode_eq rfl rfl, rfl,
    decode_of_encode_eq rfl rfl, rfl, decode_of_encode_eq rfl rfl, rfl, decode_of_encode_eq rfl rfl, rfl⟩

theorem hostIssue_refused {s : State} {x : HostInput} {q : List HostInput} {reason : RefuseReason}
    (hq : s.hostQueue = x :: q) (hx : x.instr = .error reason) :
    hostIssue s = .next (State.recordRefusal { s with hostQueue := q } reason) := by
  simp [hostIssue, takeCommand, hq, hx]

/-- Settles O47: the input has no instruction, for the decoder's reason or for the assembler's. -/
theorem stepRefusesHostWord : Obligations.StepRefusesHostWord := by
  intro s x q rest reason hl hf hp hn hq hs hrefused
  have hx : x.instr = .error reason := by
    rcases hrefused with ⟨w, rfl | ⟨l, rfl, ha⟩, hd⟩ | ⟨l, rfl, ha⟩
    · exact (HostInput.instr_word w).trans hd
    · exact (HostInput.instr_line ha).trans hd
    · exact HostInput.instr_line_refused ha
  exact step_still hl hs (State.enabled_host_iff.2 ⟨hf, hp, hn⟩) (hostIssue_refused hq hx) rfl rfl

end Sys2Proof.Machine
end

section
/-! PROOFS. What each atomic step of the host's four commands answers (R76, R78, R80, R82), one equation per phase, and
the commands run from their issue by `exec` alone. -/

namespace Sys2Proof.Machine

variable {s : State} {value : Half} {rate : Word} {dp : Byte}

/-! ## RESET -/

theorem exec_reset_idle (hp : s.fgPhase = .idle) (hr : rate ≠ 0) : exec (.reset value rate dp) s =
    .next { s with opValue := value, opRate := rate, opDp := dp, fgPhase := .rs1 } := by
  simp only [exec, execReset, hp, if_neg hr]

theorem exec_reset_rs1 (hp : s.fgPhase = .rs1) :
    exec (.reset value rate dp) s = .next { s with value := value, fgPhase := .rs2 } := by
  simp [exec, execReset, hp]

theorem exec_reset_rs2 (hp : s.fgPhase = .rs2) :
    exec (.reset value rate dp) s = .next { s with dpMask := dp, fgPhase := .rs3 } := by
  simp [exec, execReset, hp]

theorem exec_reset_rs3 (hp : s.fgPhase = .rs3) :
    exec (.reset value rate dp) s = .next { s with index := 0, fgPhase := .rs4 } := by
  simp [exec, execReset, hp]

theorem exec_reset_rs4 (hp : s.fgPhase = .rs4) : exec (.reset value rate dp) s =
    .next { s with refreshTicks := interval s.cfg.timerResolution rate, fgPhase := .idle } := by
  simp [exec, execReset, hp]

/-- Settles O18: the precondition decides between the first step and the fault. -/
theorem resetIssue : Obligations.ResetIssue := by
  intro value rate dp s hp
  refine ⟨exec_reset_idle hp, ?_⟩
  rintro rfl hf
  exact exec_reset_rate_zero_of_idle hp hf value dp

/-- Settles O19, a phase at a time. -/
theorem resetSteps : Obligations.ResetSteps :=
  fun _ _ _ _ => ⟨exec_reset_rs1, exec_reset_rs2, exec_reset_rs3, exec_reset_rs4⟩

/-! ## SETVAL -/

theorem exec_setval_idle (hp : s.fgPhase = .idle) :
    exec (.setval value dp) s = .next { s with opValue := value, opDp := dp, fgPhase := .v1 } := by
  simp [exec, execSetval, hp]

theorem exec_setval_v1 (hp : s.fgPhase = .v1) :
    exec (.setval value dp) s = .next { s with value := value, fgPhase := .v2 } := by
  simp [exec, execSetval, hp]

theorem exec_setval_v2 (hp : s.fgPhase = .v2) :
    exec (.setval value dp) s = .next { s with dpMask := dp, fgPhase := .idle } := by
  simp [exec, execSetval, hp]

/-- Settles O21, a phase at a time. -/
theorem setvalSteps : Obligations.SetvalSteps :=
  fun _ _ _ => ⟨exec_setval_idle, exec_setval_v1, exec_setval_v2⟩

/-! ## START -/

theorem exec_start_idle (hp : s.fgPhase = .idle) (hd : s.attached = false) :
    exec .start s = .next { s with fgPhase := .aArm } := by
  simp [exec, execStart, hp, hd]

theorem exec_start_attached (hp : s.fgPhase = .idle) (ha : s.attached = true) (hf : s.fault = none) :
    exec .start s = .next { s with fault := some ⟨.doubleStart, .command (encode .start)⟩ } := by
  simp [exec, execStart, hp, ha, State.recordFault, hf]

theorem exec_start_aArm (hp : s.fgPhase = .aArm) (hoff : s.sPhase = .off) :
    exec .start s = .next { s with sCaller := .fg, sPhase := .s1 } := by
  simp [exec, execStart, hp, callScheduler_off hoff]

theorem exec_start_aAtt (hp : s.fgPhase = .aAtt) :
    exec .start s = .next { s with attached := true, late := false, fgPhase := .idle } := by
  simp [exec, execStart, hp]

/-- Settles O24, a phase at a time; the word of START is 3. -/
theorem startSteps : Obligations.StartSteps :=
  fun _ => ⟨exec_start_idle, exec_start_attached, exec_start_aArm, exec_start_aAtt⟩

/-! ## STOP -/

theorem exec_stop_attached (hp : s.fgPhase = .idle) (ha : s.attached = true) :
    exec .stop s = .next { s with fgPhase := .sp1 } := by
  simp [exec, execStop, hp, ha]

theorem exec_stop_noop (hp : s.fgPhase = .idle) (hd : s.attached = false) (hpol : s.cfg.stopWhenDetached = .noop) :
    exec .stop s = .next s := by
  simp [exec, execStop, hp, hd, hpol]

theorem exec_stop_fault (hp : s.fgPhase = .idle) (hd : s.attached = false) (hpol : s.cfg.stopWhenDetached = .fault)
    (hf : s.fault = none) : exec .stop s =
      .next { s with fault := some ⟨.stopDetached, .command (encode .stop)⟩ } := by
  simp [exec, execStop, hp, hd, hpol, State.recordFault, hf]

theorem exec_stop_sp1 (hp : s.fgPhase = .sp1) : exec .stop s =
    .next { (drawLate s).2 with attached := false, late := (drawLate s).1, fgPhase := .idle } := by
  simp [exec, execStop, hp]

theorem drawLate_cons {b : Bool} {bs : List Bool} (hb : s.lateDraws = b :: bs) :
    drawLate s = (b, { s with lateDraws := bs }) := by
  simp [drawLate, hb]

theorem drawLate_nil (hb : s.lateDraws = []) :
    drawLate s = (Config.freeLate s.draws, { s with draws := s.draws + 1 }) := by
  simp [drawLate, hb]

/-- Settles O26: SP1's late fire is the draw's, of a given value or of a free one. -/
theorem stopSteps : Obligations.StopSteps := by
  intro s
  refine ⟨exec_stop_attached, exec_stop_noop, exec_stop_fault, fun hp b bs hb => ?given,
    fun hp hb => ⟨Config.freeLate s.draws, ?free⟩⟩
  case given => rw [exec_stop_sp1 hp, drawLate_cons hb]
  case free => rw [exec_stop_sp1 hp, drawLate_nil hb]

/-! ## Runs of one command by `exec` -/

theorem execTimes_zero (i : Instr) (s : State) : execTimes 0 i s = .next s := rfl

theorem execTimes_succ {i : Instr} {s t : State} (n : Nat) (h : exec i s = .next t) :
    execTimes (n + 1) i s = execTimes n i t := by
  simp [execTimes, h]

theorem execTimes_reset (hp : s.fgPhase = .idle) (hr : rate ≠ 0) : execTimes 5 (.reset value rate dp) s =
    .next { s with
      value := value, dpMask := dp, index := 0, refreshTicks := interval s.cfg.timerResolution rate
      opValue := value, opRate := rate, opDp := dp, fgPhase := .idle } := by
  rw [execTimes_succ _ (exec_reset_idle hp hr), execTimes_succ _ (exec_reset_rs1 rfl),
    execTimes_succ _ (exec_reset_rs2 rfl), execTimes_succ _ (exec_reset_rs3 rfl),
    execTimes_succ _ (exec_reset_rs4 rfl), execTimes_zero]

theorem execTimes_setval (hp : s.fgPhase = .idle) : execTimes 3 (.setval value dp) s =
    .next { s with value := value, dpMask := dp, opValue := value, opDp := dp, fgPhase := .idle } := by
  rw [execTimes_succ _ (exec_setval_idle hp), execTimes_succ _ (exec_setval_v1 rfl),
    execTimes_succ _ (exec_setval_v2 rfl), execTimes_zero]

/-- Settles O16: RESET's whole run writes the registers that power-on gives. -/
theorem powerOnIsConstruction : Obligations.PowerOnIsConstruction := by
  intro p s hp hr
  refine ⟨_, execTimes_reset hp hr, rfl, rfl, rfl, (if_neg hr).symm, rfl⟩

/-- Settles O23: what a SETVAL's whole run writes is there already when it runs again. -/
theorem setvalIdempotent : Obligations.SetvalIdempotent :=
  fun _ _ _ hp => ⟨_, execTimes_setval hp, execTimes_setval rfl, rfl, rfl, rfl, rfl⟩

end Sys2Proof.Machine
end

section
/-! PROOFS. What each atomic step of TICK and of ARM answers (R87, R98), one equation per phase; a step that makes a bus
access where the platform admits it. -/

namespace Sys2Proof.Machine

variable {s : State} {count : Word}

theorem exec_tick_none (hp : s.bgPhase = .none) : exec .tick s = .next s.interruptEntry := by
  simp [exec, execTick, hp]

theorem exec_tick_t1 (hp : s.bgPhase = .t1) (hl : s.cfg.legal = true)
    (ha : s.cfg.admits ⟨s.cfg.addrDigit, 1, .write⟩ = true) :
    exec .tick s = .next { s with gpioDigit := oneHot s.index, bgPhase := .t2 } := by
  simp [exec, execTick, hp, writeThen, memWrite_gpioDigit hl, ha]

theorem exec_tick_t2 (hp : s.bgPhase = .t2) (hl : s.cfg.legal = true)
    (ha : s.cfg.admits ⟨s.cfg.addrSeg, 1, .write⟩ = true) :
    exec .tick s = .next { s with gpioSeg := segByte s.value s.dpMask s.index, bgPhase := .t3 } := by
  simp [exec, execTick, hp, writeThen, memWrite_gpioSeg hl, ha]

theorem exec_tick_t3 (hp : s.bgPhase = .t3) :
    exec .tick s = .next { s with index := nextIndex s.index, bgPhase := .tArm } := by
  simp [exec, execTick, hp]

theorem exec_tick_tArm (hp : s.bgPhase = .tArm) (hoff : s.sPhase = .off) :
    exec .tick s = .next { s with sCaller := .bg, sPhase := .s1 } := by
  simp [exec, execTick, hp, callScheduler_off hoff]

theorem exec_tick_tx (hp : s.bgPhase = .tx) : exec .tick s = .next s.interruptReturn := by
  simp [exec, execTick, hp]

theorem exec_arm_s1 (hp : s.sPhase = .s1) : exec (.arm count) s =
    .next { s with sCount := count, sSaved := s.gie, gie := false, sPhase := .s2 } := by
  simp [exec, execArm, hp]

theorem exec_arm_s2 (hp : s.sPhase = .s2) (hl : s.cfg.legal = true)
    (ha : s.cfg.admits ⟨s.cfg.addrMtimeLo, 4, .read⟩ = true) :
    exec (.arm count) s = .next { s with sLo := lo32 s.mtime, sPhase := .s3 } := by
  simp [exec, execArm, hp, readThen, memRead_mtimeLo hl, ha]

theorem exec_arm_s3 (hp : s.sPhase = .s3) (hl : s.cfg.legal = true)
    (ha : s.cfg.admits ⟨s.cfg.addrMtimeHi, 4, .read⟩ = true) :
    exec (.arm count) s = .next { s with sHi := hi32 s.mtime, sPhase := .s4 } := by
  simp [exec, execArm, hp, readThen, memRead_mtimeHi hl, ha]

theorem exec_arm_s4 (hp : s.sPhase = .s4) : exec (.arm count) s =
    .next { s with sFin := deadline s.sHi s.sLo s.sCount, sPhase := .s5 } := by
  simp [exec, execArm, hp]

theorem exec_arm_s5 (hp : s.sPhase = .s5) (hl : s.cfg.legal = true)
    (ha : s.cfg.admits ⟨s.cfg.addrMtimecmpLo, 4, .write⟩ = true) :
    exec (.arm count) s = .next { s with mtimecmp := withLo s.mtimecmp sentinel, sPhase := .s6 } := by
  simp [exec, execArm, hp, writeThen, memWrite_mtimecmpLo hl, ha]

theorem exec_arm_s6 (hp : s.sPhase = .s6) (hl : s.cfg.legal = true)
    (ha : s.cfg.admits ⟨s.cfg.addrMtimecmpHi, 4, .write⟩ = true) :
    exec (.arm count) s = .next { s with mtimecmp := withHi s.mtimecmp (hi32 s.sFin), sPhase := .s7 } := by
  simp [exec, execArm, hp, writeThen, memWrite_mtimecmpHi hl, ha]

theorem exec_arm_s7 (hp : s.sPhase = .s7) (hl : s.cfg.legal = true)
    (ha : s.cfg.admits ⟨s.cfg.addrMtimecmpLo, 4, .write⟩ = true) :
    exec (.arm count) s = .next { s with mtimecmp := withLo s.mtimecmp (lo32 s.sFin), sPhase := .s8 } := by
  simp [exec, execArm, hp, writeThen, memWrite_mtimecmpLo hl, ha]

theorem exec_arm_s8_fg (hp : s.sPhase = .s8) (hc : s.sCaller = .fg) :
    exec (.arm count) s = .next { s with gie := s.sSaved, sPhase := .off, fgPhase := .aAtt } := by
  simp [exec, execArm, hp, State.returnToCaller_fg s hc]

theorem exec_arm_s8_bg (hp : s.sPhase = .s8) (hc : s.sCaller = .bg) :
    exec (.arm count) s = .next { s with gie := s.sSaved, sPhase := .off, bgPhase := .tx } := by
  simp [exec, execArm, hp, State.returnToCaller_bg s hc]

end Sys2Proof.Machine
end

section
/-! PROOFS. Runs with no other agent between their steps (R85): RESET, SETVAL and START from the host's issue, and TICK
from its delivery, with the scheduler run the two share (R98). -/

namespace Sys2Proof.Machine

variable {s t : State} {a : Agent} {i : Instr} {q : List HostInput} {rest : List Agent}

/-! ## A step of each agent that leaves the timer alone -/

theorem hostIssue_encode (hw : i.wellFormed .host = true) (hq : s.hostQueue = .word (encode i) :: q) :
    hostIssue s = exec i { s with hostQueue := q } := by
  have hi : (HostInput.word (encode i)).instr = .ok i := decode_of_encode_eq rfl hw
  simp [hostIssue, takeCommand, hq, hi]

theorem step_host_still (hl : s.cfg.legal = true) (hf : s.fault = none) (hp : s.fgPhase = .idle)
    (hn : s.bgPhase = .none) (hs : s.schedule = .host :: rest) (hq : s.hostQueue = .word (encode i) :: q)
    (hw : i.wellFormed .host = true) (ht : exec i { s with hostQueue := q, schedule := rest } = .next t)
    (hm : t.mtime = s.mtime) (hc : t.mtimecmp = s.mtimecmp) : step s = .next t := by
  have hissue : hostIssue { s with schedule := rest } = exec i { s with hostQueue := q, schedule := rest } :=
    hostIssue_encode hw hq
  exact step_still hl hs (State.enabled_host_iff.2 ⟨hf, hp, hn⟩) (hissue.trans ht) hm hc

theorem step_foreground_still (hl : s.cfg.legal = true) (hf : s.fault = none) (hn : s.bgPhase = .none)
    (hs : s.schedule = .foreground :: rest) (hi : s.foregroundInstr = some i)
    (ht : exec i { s with schedule := rest } = .next t) (hm : t.mtime = s.mtime) (hc : t.mtimecmp = s.mtimecmp) :
    step s = .next t := by
  have hp : s.fgPhase ≠ .idle := by
    intro hp
    simp [State.foregroundInstr, hp] at hi
  have hi' : State.foregroundInstr { s with schedule := rest } = some i := hi
  exact step_still hl hs (State.enabled_foreground_iff.2 ⟨hf, hp, hn⟩) (by rw [agentStep, hi', execNext, ht]) hm hc

theorem step_background_still (hl : s.cfg.legal = true) (hf : s.fault = none)
    (hs : s.schedule = .background :: rest) (hi : s.backgroundInstr = some i)
    (ht : exec i { s with schedule := rest } = .next t) (hm : t.mtime = s.mtime) (hc : t.mtimecmp = s.mtimecmp) :
    step s = .next t := by
  have hp : s.bgPhase ≠ .none := by
    intro hp
    simp [State.backgroundInstr, hp] at hi
  have hi' : State.backgroundInstr { s with schedule := rest } = some i := hi
  exact step_still hl hs (State.enabled_background_iff.2 ⟨hf, hp⟩) (by rw [agentStep, hi', execNext, ht]) hm hc

/-! ## RESET and SETVAL -/

/-- Settles O20: the issue, then RS1 to RS4. -/
theorem resetRun : Obligations.ResetRun := by
  intro value rate dp s q rest hl hf hp hn hr hq hs
  calc Host.Core.run core 5 s
    _ = Host.Core.run core 4 { s with
          opValue := value, opRate := rate, opDp := dp, fgPhase := .rs1, hostQueue := q
          schedule := List.replicate 4 .foreground ++ rest } :=
        run_succ 4 (step_host_still hl hf hp hn hs hq rfl (exec_reset_idle hp hr) rfl rfl)
    _ = Host.Core.run core 3 { s with
          value := value, opValue := value, opRate := rate, opDp := dp, fgPhase := .rs2, hostQueue := q
          schedule := List.replicate 3 .foreground ++ rest } :=
        run_succ 3 (step_foreground_still hl hf hn rfl rfl (exec_reset_rs1 rfl) rfl rfl)
    _ = Host.Core.run core 2 { s with
          value := value, dpMask := dp, opValue := value, opRate := rate, opDp := dp, fgPhase := .rs3, hostQueue := q
          schedule := List.replicate 2 .foreground ++ rest } :=
        run_succ 2 (step_foreground_still hl hf hn rfl rfl (exec_reset_rs2 rfl) rfl rfl)
    _ = Host.Core.run core 1 { s with
          value := value, dpMask := dp, index := 0, opValue := value, opRate := rate, opDp := dp, fgPhase := .rs4
          hostQueue := q, schedule := .foreground :: rest } :=
        run_succ 1 (step_foreground_still hl hf hn rfl rfl (exec_reset_rs3 rfl) rfl rfl)
    _ = .next { s with
          value := value, dpMask := dp, index := 0, refreshTicks := s.cfg.timerResolution / rate
          opValue := value, opRate := rate, opDp := dp, fgPhase := .idle, hostQueue := q, schedule := rest } :=
        run_succ 0 (step_foreground_still hl hf hn rfl rfl (exec_reset_rs4 rfl) rfl rfl)
    _ = _ := by rw [← hp]

/-- Settles O22: the issue, then V1 and V2. -/
theorem setvalRun : Obligations.SetvalRun := by
  intro value dp s q rest hl hf hp hn hq hs
  calc Host.Core.run core 3 s
    _ = Host.Core.run core 2 { s with
          opValue := value, opDp := dp, fgPhase := .v1, hostQueue := q
          schedule := [.foreground, .foreground] ++ rest } :=
        run_succ 2 (step_host_still hl hf hp hn hs hq rfl (exec_setval_idle hp) rfl rfl)
    _ = Host.Core.run core 1 { s with
          value := value, opValue := value, opDp := dp, fgPhase := .v2, hostQueue := q
          schedule := .foreground :: rest } :=
        run_succ 1 (step_foreground_still hl hf hn rfl rfl (exec_setval_v1 rfl) rfl rfl)
    _ = .next { s with
          value := value, dpMask := dp, opValue := value, opDp := dp, fgPhase := .idle, hostQueue := q
          schedule := rest } :=
        run_succ 0 (step_foreground_still hl hf hn rfl rfl (exec_setval_v2 rfl) rfl rfl)
    _ = _ := by rw [← hp]

/-! ## A scheduler run -/

/-- A write of the comparator, the counter standing at `mtime`, makes a rising edge of MATCH (R113). -/
def writeEdge (mtime old new : DWord) : Bool := !matchOf mtime old && matchOf mtime new

/-- The edges of a scheduler run are those of its three writes. -/
theorem armEdge_eq (mtime old fin : DWord) : armEdge mtime old fin =
    (writeEdge mtime old (withLo old sentinel) ||
      writeEdge mtime (withLo old sentinel) (withHi (withLo old sentinel) (hi32 fin)) ||
      writeEdge mtime (withHi (withLo old sentinel) (hi32 fin)) fin) := rfl

/-- The steps of a scheduler run are the agent's: the foreground's in START's run, the background's in TICK's (R108,
R128). -/
def State.Runs (a : Agent) (s : State) : Prop :=
  s.cfg.legal = true ∧ s.fault = none ∧
    ((a = .foreground ∧ s.bgPhase = .none ∧ s.fgPhase = .aArm) ∨ (a = .background ∧ s.bgPhase = .tArm))

theorem step_arm (h : s.Runs a) (hp : s.sPhase ≠ .off) (hs : s.schedule = a :: rest) :
    step s = latched s (exec (.arm s.refreshTicks) { s with schedule := rest }) := by
  obtain ⟨hl, hf, ⟨rfl, hn, ha⟩ | ⟨rfl, ht⟩⟩ := h
  · exact step_runs hl hs (State.enabled_foreground_iff.2 ⟨hf, by simp [ha], hn⟩)
      (by simp [agentStep, State.foregroundInstr, ha, execNext])
  · exact step_runs hl hs (State.enabled_background_iff.2 ⟨hf, by simp [ht]⟩)
      (by simp [agentStep, State.backgroundInstr, ht, execNext])

theorem step_arm_still (h : s.Runs a) (hp : s.sPhase ≠ .off) (hs : s.schedule = a :: rest)
    (ht : exec (.arm s.refreshTicks) { s with schedule := rest } = .next t)
    (hm : t.mtime = s.mtime) (hc : t.mtimecmp = s.mtimecmp) : step s = .next t := by
  rw [step_arm h hp hs, ht, latched_still hm hc]

theorem step_arm_latched {u : State} (h : s.Runs a) (hp : s.sPhase ≠ .off) (hs : s.schedule = a :: rest)
    (ht : exec (.arm s.refreshTicks) { s with schedule := rest } = .next t)
    (hu : u = { t with pending := t.pending || (!s.matchNow && t.matchNow) }) : step s = .next u := by
  rw [step_arm h hp hs, ht, latched_next, hu]

/-- S1 to S4: the deadline is computed, the timer read and left as it is (R99 to R102). -/
theorem run_arm_reads (h : s.Runs a) (hlo : s.cfg.admits ⟨s.cfg.addrMtimeLo, 4, .read⟩ = true)
    (hhi : s.cfg.admits ⟨s.cfg.addrMtimeHi, 4, .read⟩ = true) (hp : s.sPhase = .s1)
    (hs : s.schedule = List.replicate 4 a ++ rest) :
    Host.Core.run core 4 s = .next { s with
      sCount := s.refreshTicks, sSaved := s.gie, gie := false, sLo := lo32 s.mtime, sHi := hi32 s.mtime
      sFin := s.nextDeadline, sPhase := .s5, schedule := rest } := by
  have hfin : s.nextDeadline = deadline (hi32 s.mtime) (lo32 s.mtime) s.refreshTicks := by
    rw [deadline, join_halves]; rfl
  rw [hfin]
  calc Host.Core.run core 4 s
    _ = Host.Core.run core 3 { s with
          sCount := s.refreshTicks, sSaved := s.gie, gie := false, sPhase := .s2
          schedule := List.replicate 3 a ++ rest } :=
        run_succ 3 (step_arm_still h (by simp [hp]) hs (exec_arm_s1 hp) rfl rfl)
    _ = Host.Core.run core 2 { s with
          sCount := s.refreshTicks, sSaved := s.gie, gie := false, sLo := lo32 s.mtime, sPhase := .s3
          schedule := List.replicate 2 a ++ rest } :=
        run_succ 2 (step_arm_still h (by simp) rfl (exec_arm_s2 rfl h.1 hlo) rfl rfl)
    _ = Host.Core.run core 1 { s with
          sCount := s.refreshTicks, sSaved := s.gie, gie := false, sLo := lo32 s.mtime, sHi := hi32 s.mtime
          sPhase := .s4, schedule := a :: rest } :=
        run_succ 1 (step_arm_still h (by simp) rfl (exec_arm_s3 rfl h.1 hhi) rfl rfl)
    _ = _ := run_succ 0 (step_arm_still h (by simp) rfl (exec_arm_s4 rfl) rfl rfl)

/-- S5 to S7: the comparator is the deadline, and PENDING is set where a write makes an edge (R103 to R105, R113). -/
theorem run_arm_writes (h : s.Runs a) (hlo : s.cfg.admits ⟨s.cfg.addrMtimecmpLo, 4, .write⟩ = true)
    (hhi : s.cfg.admits ⟨s.cfg.addrMtimecmpHi, 4, .write⟩ = true) (hp : s.sPhase = .s5)
    (hs : s.schedule = List.replicate 3 a ++ rest) :
    Host.Core.run core 3 s = .next { s with
      mtimecmp := s.sFin, pending := s.pending || armEdge s.mtime s.mtimecmp s.sFin, sPhase := .s8
      schedule := rest } := by
  have hfin : withLo (withHi (withLo s.mtimecmp sentinel) (hi32 s.sFin)) (lo32 s.sFin) = s.sFin := withLo_withHi _ _
  rw [armEdge_eq]
  calc Host.Core.run core 3 s
    _ = Host.Core.run core 2 { s with
          mtimecmp := withLo s.mtimecmp sentinel
          pending := s.pending || writeEdge s.mtime s.mtimecmp (withLo s.mtimecmp sentinel)
          sPhase := .s6, schedule := List.replicate 2 a ++ rest } :=
        run_succ 2 (step_arm_latched h (by simp [hp]) hs (exec_arm_s5 hp h.1 hlo) rfl)
    _ = Host.Core.run core 1 { s with
          mtimecmp := withHi (withLo s.mtimecmp sentinel) (hi32 s.sFin)
          pending := s.pending || writeEdge s.mtime s.mtimecmp (withLo s.mtimecmp sentinel) ||
            writeEdge s.mtime (withLo s.mtimecmp sentinel) (withHi (withLo s.mtimecmp sentinel) (hi32 s.sFin))
          sPhase := .s7, schedule := a :: rest } :=
        run_succ 1 (step_arm_latched h (by simp) rfl (exec_arm_s6 rfl h.1 hhi) rfl)
    _ = _ := run_succ 0 (step_arm_latched h (by simp) rfl (exec_arm_s7 rfl h.1 hlo)
        (by simp only [hfin, Bool.or_assoc]; rfl))

/-- S1 to S7: the comparator is MTIME + REFRESH_TICKS, and GIE is masked and saved (R98). -/
theorem run_arm (h : s.Runs a) (hadm : s.cfg.admitsScheduler = true) (hp : s.sPhase = .s1)
    (hs : s.schedule = List.replicate 7 a ++ rest) :
    Host.Core.run core 7 s = .next { s with
      mtimecmp := s.nextDeadline, pending := s.pending || armEdge s.mtime s.mtimecmp s.nextDeadline
      sCount := s.refreshTicks, sSaved := s.gie, gie := false, sLo := lo32 s.mtime, sHi := hi32 s.mtime
      sFin := s.nextDeadline, sPhase := .s8, schedule := rest } := by
  obtain ⟨hreadLo, hreadHi, hwriteLo, hwriteHi⟩ := (admitsScheduler_iff _).1 hadm
  calc Host.Core.run core 7 s
    _ = Host.Core.run core 3 { s with
          sCount := s.refreshTicks, sSaved := s.gie, gie := false, sLo := lo32 s.mtime, sHi := hi32 s.mtime
          sFin := s.nextDeadline, sPhase := .s5, schedule := List.replicate 3 a ++ rest } :=
        run_add 3 (run_arm_reads h hreadLo hreadHi hp hs)
    _ = _ := run_arm_writes h hwriteLo hwriteHi rfl rfl

/-! ## START -/

/-- Settles O25: the issue, the call, the scheduler run, and the attach step. -/
theorem startRun : Obligations.StartRun := by
  intro s q rest hl hadm hf hd hp hn hoff hq hs
  calc Host.Core.run core 11 s
    _ = Host.Core.run core 10 { s with
          fgPhase := .aArm, hostQueue := q, schedule := List.replicate 10 .foreground ++ rest } :=
        run_succ 10 (step_host_still hl hf hp hn hs hq rfl (exec_start_idle hp hd) rfl rfl)
    _ = Host.Core.run core 9 { s with
          sCaller := .fg, fgPhase := .aArm, sPhase := .s1, hostQueue := q
          schedule := List.replicate 9 .foreground ++ rest } :=
        run_succ 9 (step_foreground_still hl hf hn rfl (by simp [State.foregroundInstr, hoff])
          (exec_start_aArm rfl hoff) rfl rfl)
    _ = Host.Core.run core 2 { s with
          mtimecmp := s.nextDeadline, pending := s.pending || armEdge s.mtime s.mtimecmp s.nextDeadline
          sCount := s.refreshTicks, sSaved := s.gie, gie := false, sLo := lo32 s.mtime, sHi := hi32 s.mtime
          sFin := s.nextDeadline, sCaller := .fg, fgPhase := .aArm, sPhase := .s8, hostQueue := q
          schedule := [.foreground, .foreground] ++ rest } :=
        run_add 2 (run_arm ⟨hl, hf, .inl ⟨rfl, hn, rfl⟩⟩ hadm rfl rfl)
    _ = Host.Core.run core 1 { s with
          mtimecmp := s.nextDeadline, pending := s.pending || armEdge s.mtime s.mtimecmp s.nextDeadline
          sCount := s.refreshTicks, sSaved := s.gie, sLo := lo32 s.mtime, sHi := hi32 s.mtime
          sFin := s.nextDeadline, sCaller := .fg, fgPhase := .aAtt, sPhase := .off, hostQueue := q
          schedule := .foreground :: rest } :=
        run_succ 1 (step_foreground_still hl hf hn rfl rfl (exec_arm_s8_fg rfl rfl) rfl rfl)
    _ = .next { s with
          mtimecmp := s.nextDeadline, pending := s.pending || armEdge s.mtime s.mtimecmp s.nextDeadline
          sCount := s.refreshTicks, sSaved := s.gie, sLo := lo32 s.mtime, sHi := hi32 s.mtime
          sFin := s.nextDeadline, sCaller := .fg, attached := true, late := false, fgPhase := .idle, sPhase := .off
          hostQueue := q, schedule := rest } :=
        run_succ 0 (step_foreground_still hl hf hn rfl rfl (exec_start_aAtt rfl) rfl rfl)
    _ = _ := by rw [← hp, ← hoff]; rfl

/-! ## TICK -/

/-- The entry and T1 to T3 of TICK: the ports show the digit of INDEX, and INDEX is advanced (R87 to R92, R114). -/
theorem run_tick_render (hl : s.cfg.legal = true) (hadm : s.cfg.admitsSix = true) (hd : s.deliveryEnabled = true)
    (hs : s.schedule = [.deliver, .background, .background, .background] ++ rest) :
    Host.Core.run core 4 s = .next { s.interruptEntry with
      gpioDigit := oneHot s.index, gpioSeg := segByte s.value s.dpMask s.index, index := nextIndex s.index
      bgPhase := .tArm, schedule := rest } := by
  obtain ⟨hf, -, -, -, hn, hoff⟩ := State.enabled_deliver_iff.1 hd
  calc Host.Core.run core 4 s
    _ = Host.Core.run core 3 { s.interruptEntry with schedule := List.replicate 3 .background ++ rest } :=
        run_succ 3 (step_still hl hs hd (exec_tick_none hn) rfl rfl)
    _ = Host.Core.run core 2 { s.interruptEntry with
          gpioDigit := oneHot s.index, bgPhase := .t2, schedule := List.replicate 2 .background ++ rest } :=
        run_succ 2 (step_background_still hl hf rfl rfl (exec_tick_t1 rfl hl (admits_access hadm .gpioDigit)) rfl rfl)
    _ = Host.Core.run core 1 { s.interruptEntry with
          gpioDigit := oneHot s.index, gpioSeg := segByte s.value s.dpMask s.index, bgPhase := .t3
          schedule := .background :: rest } :=
        run_succ 1 (step_background_still hl hf rfl rfl (exec_tick_t2 rfl hl (admits_access hadm .gpioSeg)) rfl rfl)
    _ = _ := run_succ 0 (step_background_still hl hf rfl rfl (exec_tick_t3 rfl) rfl rfl)

/-- One whole TICK, from its delivery to its return (R87, R95, R117). -/
theorem run_tick (hl : s.cfg.legal = true) (hadm : s.cfg.admitsSix = true) (hd : s.deliveryEnabled = true)
    (hs : s.schedule = tickAgents ++ rest) :
    Host.Core.run core 14 s = .next { s with
      gpioDigit := oneHot s.index, gpioSeg := segByte s.value s.dpMask s.index, index := nextIndex s.index
      late := s.attached && s.late, irqSavedGie := s.gie
      mtimecmp := s.nextDeadline, pending := armEdge s.mtime s.mtimecmp s.nextDeadline
      sCount := s.refreshTicks, sSaved := false, sLo := lo32 s.mtime, sHi := hi32 s.mtime, sFin := s.nextDeadline
      sCaller := .bg, schedule := rest } := by
  obtain ⟨hf, -, -, -, hn, hoff⟩ := State.enabled_deliver_iff.1 hd
  calc Host.Core.run core 14 s
    _ = Host.Core.run core 10 { s.interruptEntry with
          gpioDigit := oneHot s.index, gpioSeg := segByte s.value s.dpMask s.index, index := nextIndex s.index
          bgPhase := .tArm, schedule := List.replicate 10 .background ++ rest } :=
        run_add 10 (run_tick_render hl hadm hd hs)
    _ = Host.Core.run core 9 { s.interruptEntry with
          gpioDigit := oneHot s.index, gpioSeg := segByte s.value s.dpMask s.index, index := nextIndex s.index
          sCaller := .bg, bgPhase := .tArm, sPhase := .s1, schedule := List.replicate 9 .background ++ rest } :=
        run_succ 9 (step_background_still hl hf rfl (by simp [State.backgroundInstr, hoff])
          (exec_tick_tArm rfl hoff) rfl rfl)
    _ = Host.Core.run core 2 { s.interruptEntry with
          gpioDigit := oneHot s.index, gpioSeg := segByte s.value s.dpMask s.index, index := nextIndex s.index
          mtimecmp := s.nextDeadline, pending := armEdge s.mtime s.mtimecmp s.nextDeadline
          sCount := s.refreshTicks, sSaved := false, sLo := lo32 s.mtime, sHi := hi32 s.mtime, sFin := s.nextDeadline
          sCaller := .bg, bgPhase := .tArm, sPhase := .s8, schedule := [.background, .background] ++ rest } :=
        run_add 2 (run_arm ⟨hl, hf, .inr ⟨rfl, rfl⟩⟩ (admitsScheduler_of_admitsSix hadm) rfl rfl)
    _ = Host.Core.run core 1 { s.interruptEntry with
          gpioDigit := oneHot s.index, gpioSeg := segByte s.value s.dpMask s.index, index := nextIndex s.index
          mtimecmp := s.nextDeadline, pending := armEdge s.mtime s.mtimecmp s.nextDeadline
          sCount := s.refreshTicks, sSaved := false, sLo := lo32 s.mtime, sHi := hi32 s.mtime, sFin := s.nextDeadline
          sCaller := .bg, bgPhase := .tx, sPhase := .off, schedule := .background :: rest } :=
        run_succ 1 (step_background_still hl hf rfl rfl (exec_arm_s8_bg rfl rfl) rfl rfl)
    _ = .next { s with
          gpioDigit := oneHot s.index, gpioSeg := segByte s.value s.dpMask s.index, index := nextIndex s.index
          late := s.attached && s.late, irqSavedGie := s.gie
          mtimecmp := s.nextDeadline, pending := armEdge s.mtime s.mtimecmp s.nextDeadline
          sCount := s.refreshTicks, sSaved := false, sLo := lo32 s.mtime, sHi := hi32 s.mtime, sFin := s.nextDeadline
          sCaller := .bg, bgPhase := .none, sPhase := .off, schedule := rest } :=
        run_succ 0 (step_background_still hl hf rfl rfl (exec_tick_tx rfl) rfl rfl)
    _ = _ := by rw [← hn, ← hoff]

/-! ## A TICK inside a command -/

/-- Settles O56: the TICK sees V1's VALUE and the old mask. -/
theorem setvalMixedTick : Obligations.SetvalMixedTick := by
  intro s rest hl hadm hf hp hn hoff hpend hgie howed hs
  have hv1 : step s = .next { s with
      value := s.opValue, fgPhase := .v2, schedule := tickAgents ++ .foreground :: rest } :=
    step_foreground_still (i := .setval s.opValue s.opDp) hl hf hn hs (by simp [State.foregroundInstr, hp])
      (exec_setval_v1 hp) rfl rfl
  have hd := State.enabled_deliver_iff.2 ⟨hf, hpend, hgie, howed, hn, hoff⟩
  have htick := run_tick (s := { s with
    value := s.opValue, fgPhase := .v2, schedule := tickAgents ++ .foreground :: rest }) hl hadm hd rfl
  exact ⟨_, (run_succ 15 hv1).trans ((run_add 1 htick).trans
    (run_succ 0 (step_foreground_still hl hf hn rfl rfl (exec_setval_v2 rfl) rfl rfl))),
    rfl, rfl, rfl, rfl, rfl, rfl, rfl⟩

/-- Settles O57: the TICK sees RS3's INDEX and the old interval. -/
theorem resetMixedTick : Obligations.ResetMixedTick := by
  intro s rest hl hadm hf hp hn hoff hpend hgie howed hs
  have hrs3 : step s = .next { s with
      index := 0, fgPhase := .rs4, schedule := tickAgents ++ .foreground :: rest } :=
    step_foreground_still (i := .reset s.opValue s.opRate s.opDp) hl hf hn hs (by simp [State.foregroundInstr, hp])
      (exec_reset_rs3 hp) rfl rfl
  have hd := State.enabled_deliver_iff.2 ⟨hf, hpend, hgie, howed, hn, hoff⟩
  have htick := run_tick (s := { s with
    index := 0, fgPhase := .rs4, schedule := tickAgents ++ .foreground :: rest }) hl hadm hd rfl
  exact ⟨_, (run_succ 15 hrs3).trans ((run_add 1 htick).trans
    (run_succ 0 (step_foreground_still hl hf hn rfl rfl (exec_reset_rs4 rfl) rfl rfl))),
    rfl, rfl, rfl, rfl, rfl, rfl⟩

end Sys2Proof.Machine
end

section
/-! PROOFS. The late fire of a STOP (R27, R83), and the agents whose step is not enabled (R128). -/

namespace Sys2Proof.Machine

variable {s t : State} {a : Agent}

/-! ## LATE -/

/-- A late fire comes to be owed by STOP's step alone, which runs attached. -/
theorem AgentUpdate.late_owed (ha : s.AttachInv) (h : AgentUpdate s a t) (hlate : t.late = true) :
    s.late = true ∨ s.attached = true := by
  obtain ⟨-, -, hstop⟩ := ha
  cases a with
  | host => rw [h.host_frame] at hlate; exact .inl hlate
  | foreground =>
    cases h with
    | sp1 hp => exact .inr (hstop hp)
    | aAtt => cases hlate
    | armFg _ _ _ hu => rw [hu.frame] at hlate; exact .inl hlate
    | _ => exact .inl hlate
  | background => rw [h.background_frame] at hlate; exact .inl hlate
  | deliver => cases h; exact .inl (Bool.and_eq_true_iff.1 hlate).2
  | _ => cases h; exact .inl hlate

/-- A TICK is started by a delivery alone (R66). -/
theorem AgentUpdate.tick_started (hc : s.CallInv) (he : s.enabled a = true) (h : AgentUpdate s a t)
    (hn : s.bgPhase = .none) (hb : t.bgPhase ≠ .none) : a = .deliver := by
  cases a with
  | host => exact absurd (by rw [h.host_frame]; exact hn) hb
  | foreground =>
    cases h with
    | sp1 => exact absurd (by rw [drawLate_frame]; exact hn) hb
    | armFg _ _ _ hu =>
      cases hu with
      | s8bg hp hcaller => simp [hc.tick (by simp [hp]) hcaller] at hn
      | _ => exact absurd hn hb
    | _ => exact absurd hn hb
  | background => exact absurd hn (State.enabled_background_iff.1 he).2
  | deliver => rfl
  | _ => cases h; exact absurd hn hb

/-- Settles O27: detached, only a late fire lets a delivery start a TICK, and its entry uses the late fire up. -/
theorem lateFireAtMostOnce : Obligations.LateFireAtMostOnce := by
  intro s t hi h
  revert hi
  apply step_property h
  · exact fun _ _ _ hkept => hkept
  · intro sch n _ hd
    exact ⟨fun hl => ⟨hl, id⟩, fun ha => absurd (hd.symm.trans ha) Bool.false_ne_true,
      fun hn hb => absurd hn hb⟩
  · rintro u a v - - he hv ⟨-, hcall, -, hatt, -, -⟩ hd
    have howed : v.late = true → u.late = true := fun hl => (hv.late_owed hatt hl).resolve_right (by simp [hd])
    have hstart : u.bgPhase = .none → v.bgPhase ≠ .none → u.late = true ∧ v.late = false := by
      intro hn hb
      obtain rfl := hv.tick_started hcall he hn hb
      obtain ⟨-, -, -, hor, -, -⟩ := State.enabled_deliver_iff.1 he
      cases hv
      exact ⟨hor.resolve_left (by simp [hd]), by simp [hd]⟩
    have hattach : v.attached = true → u.fgPhase = .aAtt ∧ v.late = false := by
      intro ha
      obtain ⟨-, -, -, hchanged⟩ := hv.display_changed he
      obtain ⟨-, ⟨hp, -⟩ | ⟨-, hdetached⟩⟩ := hchanged (by simp [ha, hd])
      · exact ⟨hp, (hv.attachInv hatt hcall he).1 ha⟩
      · simp [ha] at hdetached
    refine ⟨fun hl => ⟨?_, fun hb hn => ?_⟩, hattach, hstart⟩
    · exact Bool.eq_false_iff.2 (mt howed (by simp [hl]))
    · exact absurd (hl.symm.trans (hstart hn hb).1) Bool.false_ne_true

/-! ## Choices that are passed over -/

theorem State.enabled_drop_iff :
    s.enabled .drop = true ↔ s.fault = none ∧ s.attached = false ∧ s.pending = true := by
  simp [State.enabled, and_assoc]

/-- Settles O49: each clause is the complement of its agent's enabling condition. -/
theorem notEnabledPassedOver : Obligations.NotEnabledPassedOver := by
  intro s a rest hl hs h
  refine step_passed_over hl hs (Bool.eq_false_iff.2 fun he => ?_)
  rcases h with ⟨rfl, hne⟩ | ⟨rfl, hne⟩ | ⟨rfl, hne⟩ | ⟨rfl, hne⟩
  · exact hne (State.enabled_host_iff.1 he)
  · exact hne (State.enabled_foreground_iff.1 he)
  · exact hne (State.enabled_background_iff.1 he)
  · exact hne (State.enabled_drop_iff.1 he)

end Sys2Proof.Machine
end

section
/-! PROOFS. The steps of TICK and its whole run (R87, R95), and the digit that shows the old pattern between T1 and T2
(R96). -/

namespace Sys2Proof.Machine

variable {s : State}

/-! ## The steps and the run of a TICK -/

/-- The entry uses up a late fire owed while detached, and leaves LATE as it is while attached (R114). -/
theorem State.late_at_entry (s : State) : (s.attached && s.late) = if s.attached then s.late else false := by
  simp

theorem State.interruptEntry_eq (s : State) : s.interruptEntry = { s with
    pending := false, irqSavedGie := s.gie, gie := false
    late := if s.attached then s.late else false, bgPhase := .t1 } := by
  rw [State.interruptEntry, s.late_at_entry]

/-- Settles O29: one equation per phase. -/
theorem tickSteps : Obligations.TickSteps := fun s =>
  ⟨fun hp => by rw [exec_tick_none hp, s.interruptEntry_eq],
    exec_tick_t1, exec_tick_t2, exec_tick_t3, exec_tick_tArm, exec_tick_tx⟩

/-- Settles O33: a delivery is enabled only while GIE is 1, so TX brings 1 back. -/
theorem tickRun : Obligations.TickRun := by
  intro s rest hl hadm hd hs
  obtain ⟨-, -, hgie, -, -, -⟩ := State.enabled_deliver_iff.1 hd
  rw [run_tick hl hadm hd hs, s.late_at_entry, hgie]
  rfl

/-! ## The ghost digit -/

/-- With one digit selected, that digit shows the segment byte and no other digit shows anything (R36). -/
theorem State.digitShows_of_oneHot {j : BitVec 2} (h : s.gpioDigit = oneHot j) (i : BitVec 2) :
    s.digitShows i = if i = j then some s.gpioSeg else none := by
  have hbit : (oneHot j).getLsbD i.toNat = decide (i.toNat = j.toNat) := oneHot_getLsbD j ⟨i.toNat, by omega⟩
  simp [State.digitShows, h, hbit, BitVec.toNat_inj]

/-- Settles O34: T1 selects the digit of INDEX and leaves the segment byte. -/
theorem ghostDigit : Obligations.GhostDigit := by
  intro s rest hl ha hf hp hs
  have ht1 : step s = .next { s with gpioDigit := oneHot s.index, bgPhase := .t2, schedule := rest } :=
    step_background_still (i := .tick) hl hf hs (by simp [State.backgroundInstr, hp]) (exec_tick_t1 hp hl ha) rfl rfl
  exact ⟨_, ht1, rfl, State.digitShows_of_oneHot rfl⟩

end Sys2Proof.Machine
end

section
/-! PROOFS. The steps of ARM (R98 to R106), the comparator between its three writes (R107), and its two reads with
counter steps between them (R101, R140). -/

namespace Sys2Proof.Machine

variable {s : State} {count : Word} {a : Agent} {rest : List Agent}

/-! ## The steps -/

/-- S4's sum as arithmetic modulo 2^64 (R102). -/
theorem deadline_eq_ofNat (hi lo count : Word) :
    deadline hi lo count = BitVec.ofNat 64 (hi.toNat * 2 ^ 32 + lo.toNat + count.toNat) := by
  apply BitVec.eq_of_toNat_eq
  have hcount : (count.setWidth 64).toNat = count.toNat := BitVec.toNat_setWidth_of_le (by decide)
  rw [deadline, BitVec.toNat_add, toNat_join, hcount, BitVec.toNat_ofNat]

/-- Settles O40: one equation per phase, S4's with the deadline as arithmetic. -/
theorem armReadSteps : Obligations.ArmReadSteps := fun _ s =>
  ⟨exec_arm_s1, exec_arm_s2, exec_arm_s3, fun hp => by
    rw [exec_arm_s4 hp, deadline_eq_ofNat s.sHi s.sLo s.sCount]⟩

/-- Settles O41: one equation per phase, S8's for each caller. -/
theorem armWriteSteps : Obligations.ArmWriteSteps := fun _ _ =>
  ⟨exec_arm_s5, exec_arm_s6, exec_arm_s7, exec_arm_s8_fg, exec_arm_s8_bg⟩

/-! ## The comparator between the writes -/

/-- No value is above the one with its high half and the sentinel (R103). -/
theorem toNat_le_join_sentinel (v : DWord) : v.toNat ≤ (join (hi32 v) sentinel).toNat := by
  have hlo : (lo32 v).toNat ≤ sentinel.toNat := Nat.le_pred_of_lt (lo32 v).isLt
  calc v.toNat
    _ = (join (hi32 v) (lo32 v)).toNat := by rw [join_halves]
    _ ≤ (join (hi32 v) sentinel).toNat := by rw [toNat_join, toNat_join]; omega

/-- Replacing the high half of a value with a known low half leaves nothing of the old value. -/
theorem withHi_withLo (v : DWord) (hi lo : Word) : withHi (withLo v lo) hi = join hi lo := by
  rw [withHi, lo32_withLo]

/-- Settles O42: the two sentinel values are at least the old and the new deadline, so MATCH with any of the three
needs one of the two reached. -/
theorem armTransients : Obligations.ArmTransients := by
  intro count s hl hlo hhi hp
  have hs6 : withHi (withLo s.mtimecmp sentinel) (hi32 s.sFin) = join (hi32 s.sFin) sentinel := withHi_withLo ..
  have hs7 : withLo (withHi (withLo s.mtimecmp sentinel) (hi32 s.sFin)) (lo32 s.sFin) = s.sFin := withLo_withHi ..
  have hold : s.mtimecmp.toNat ≤ (withLo s.mtimecmp sentinel).toNat := toNat_le_join_sentinel _
  have hnew : s.sFin.toNat ≤ (withHi (withLo s.mtimecmp sentinel) (hi32 s.sFin)).toNat :=
    hs6 ▸ toNat_le_join_sentinel _
  refine ⟨_, _, _, exec_arm_s5 hp hl hlo, exec_arm_s6 rfl hl hhi, exec_arm_s7 rfl hl hlo,
    rfl, hold, hs6, hnew, hs7, ?_⟩
  simp only [State.matchNow, matchOf, decide_eq_true_eq, hs7]
  rintro (h | h | h)
  · exact (min_le_left _ _).trans (hold.trans h)
  · exact (min_le_right _ _).trans (hnew.trans h)
  · exact (min_le_right _ _).trans h

/-! ## The torn read -/

/-- Any number of counter steps: MTIME counts them, and of the rest PENDING alone may change (R32, R113). -/
theorem run_counters (k : Nat) (hl : s.cfg.legal = true) (hs : s.schedule = List.replicate k .counter ++ rest) :
    ∃ p, Host.Core.run core k s = .next { s with
      mtime := s.mtime + BitVec.ofNat 64 k, pending := p, schedule := rest } := by
  induction k generalizing s with
  | zero =>
    obtain rfl : s.schedule = rest := hs
    exact ⟨s.pending, by rw [run_zero, BitVec.add_zero]⟩
  | succ k ih =>
    have hsum : s.mtime + 1 + BitVec.ofNat 64 k = s.mtime + BitVec.ofNat 64 (k + 1) := by
      rw [BitVec.add_assoc, Nat.add_comm, BitVec.ofNat_add]; rfl
    rw [← hsum, run_succ k (counterStep s _ hl hs)]
    exact ih hl rfl

/-- S2 to S4 with `k` counter steps between the two reads (R100 to R102). -/
theorem run_arm_torn_read (k : Nat) (h : s.Runs a) (hlo : s.cfg.admits ⟨s.cfg.addrMtimeLo, 4, .read⟩ = true)
    (hhi : s.cfg.admits ⟨s.cfg.addrMtimeHi, 4, .read⟩ = true) (hp : s.sPhase = .s2)
    (hs : s.schedule = a :: List.replicate k .counter ++ [a, a] ++ rest) :
    ∃ p, Host.Core.run core (k + 3) s = .next { s with
      mtime := s.mtime + BitVec.ofNat 64 k, pending := p
      sLo := lo32 s.mtime, sHi := hi32 (s.mtime + BitVec.ofNat 64 k)
      sFin := deadline (hi32 (s.mtime + BitVec.ofNat 64 k)) (lo32 s.mtime) s.sCount
      sPhase := .s5, schedule := rest } := by
  obtain ⟨p, hcount⟩ := run_counters (s := { s with
    sLo := lo32 s.mtime, sPhase := .s3, schedule := List.replicate k .counter ++ ([a, a] ++ rest) }) k h.1 rfl
  refine ⟨p, ?_⟩
  replace hs : s.schedule = a :: (List.replicate k .counter ++ ([a, a] ++ rest)) := hs.trans (List.append_assoc ..)
  calc Host.Core.run core (k + 3) s
    _ = Host.Core.run core (k + 2) { s with
          sLo := lo32 s.mtime, sPhase := .s3, schedule := List.replicate k .counter ++ ([a, a] ++ rest) } :=
        run_succ (k + 2) (step_arm_still h (by simp [hp]) hs (exec_arm_s2 hp h.1 hlo) rfl rfl)
    _ = Host.Core.run core 2 { s with
          mtime := s.mtime + BitVec.ofNat 64 k, pending := p, sLo := lo32 s.mtime, sPhase := .s3
          schedule := a :: a :: rest } := run_add 2 hcount
    _ = Host.Core.run core 1 { s with
          mtime := s.mtime + BitVec.ofNat 64 k, pending := p
          sLo := lo32 s.mtime, sHi := hi32 (s.mtime + BitVec.ofNat 64 k), sPhase := .s4, schedule := a :: rest } :=
        run_succ 1 (step_arm_still h (by simp) rfl (exec_arm_s3 rfl h.1 hhi) rfl rfl)
    _ = _ := run_succ 0 (step_arm_still h (by simp) rfl (exec_arm_s4 rfl) rfl rfl)

/-- A counter step from an all-ones low half carries into the high half (R140). -/
theorem hi32_add_one_of_carry {v : DWord} (h : lo32 v = 0xFFFFFFFF) : hi32 (v + 1) = hi32 v + 1 := by
  have hlo : (lo32 v).toNat = 0xFFFFFFFF := by rw [h]; rfl
  apply BitVec.eq_of_toNat_eq
  simp only [lo32, hi32, BitVec.extractLsb'_toNat, BitVec.toNat_add, BitVec.toNat_ofNat, BitVec.ofNat_eq_ofNat,
    Nat.shiftRight_eq_div_pow] at hlo ⊢
  omega

/-- Settles O43: the run of S2 to S4, and the carry of one counter step. -/
theorem tornRead : Obligations.TornRead := by
  intro k s a rest hl hlo hhi hf hrun hp hs
  obtain ⟨p, ht⟩ := run_arm_torn_read k ⟨hl, hf, hrun⟩ hlo hhi hp hs
  refine ⟨_, ht, rfl, rfl, rfl, rfl, ?_, rfl, rfl, rfl⟩
  rintro rfl hcarry
  have hhigh : hi32 (s.mtime + BitVec.ofNat 64 1) = hi32 s.mtime + 1 := hi32_add_one_of_carry hcarry
  rw [hhigh, hcarry, deadline]

end Sys2Proof.Machine
end

section
/-! PROOFS. MATCH (R112), a delivery and a drop (R114, R115), what sets PENDING and what clears it (R113), and the stale
edge after a START (R145). -/

namespace Sys2Proof.Machine

variable {s t : State} {a : Agent} {rest : List Agent}

/-! ## MATCH -/

theorem State.matchNow_iff (s : State) : s.matchNow = true ↔ s.mtimecmp.toNat ≤ s.mtime.toNat := by
  simp [State.matchNow, matchOf]

/-- Settles O35: MTIME's greatest value reaches every MTIMECMP, and the 0 after it reaches 0 alone. -/
theorem matchCondition : Obligations.MatchCondition := by
  refine ⟨State.matchNow_iff, fun s hmax hcmp => ⟨?_, ?_⟩⟩
  · rw [s.matchNow_iff, hmax]
    exact Nat.le_pred_of_lt s.mtimecmp.isLt
  · have hwrap : s.advanceCounter.mtime = 0 := by rw [State.advanceCounter_mtime, hmax]; rfl
    have hpos : s.mtimecmp.toNat ≠ 0 := fun h => hcmp (BitVec.eq_of_toNat_eq h)
    rw [Bool.eq_false_iff, ne_eq, State.matchNow_iff, hwrap]
    exact fun hle => hpos (Nat.le_zero.1 hle)

/-! ## The delivery and the drop -/

theorem step_deliver (hl : s.cfg.legal = true) (hd : s.deliveryEnabled = true) (hs : s.schedule = .deliver :: rest) :
    step s = .next (State.interruptEntry { s with schedule := rest }) := by
  obtain ⟨-, -, -, -, hn, -⟩ := State.enabled_deliver_iff.1 hd
  exact step_still hl hs hd (exec_tick_none hn) rfl rfl

/-- Settles O28: the entry where R114's conditions hold, and the choice passed over where they do not. -/
theorem deliveryEntry : Obligations.DeliveryEntry := by
  intro s rest hl hs
  refine ⟨fun he => ?_, fun hne => ?_⟩
  · rw [step_deliver hl (State.enabled_deliver_iff.2 he) hs, State.interruptEntry_eq]
  · exact step_passed_over hl hs (Bool.eq_false_iff.2 fun he => hne (State.enabled_deliver_iff.1 he))

/-- Settles O38: while detached the drop clears PENDING, or there is nothing to clear. -/
theorem dropWhileDetached : Obligations.DropWhileDetached := by
  intro s rest hl hf hs
  refine ⟨fun hd => ?_, fun ha => ?_⟩
  · cases hp : s.pending with
    | true => exact step_still hl hs (State.enabled_drop_iff.2 ⟨hf, hd, hp⟩) rfl rfl rfl
    | false =>
      rw [← hp]
      exact step_passed_over hl hs (by simp [State.enabled, hp])
  · exact step_passed_over hl hs (by simp [State.enabled, ha])

/-! ## What changes PENDING -/

/-- Before the latch PENDING is written by an interrupt entry and by a drop alone. -/
theorem AgentUpdate.pending_cases (h : AgentUpdate s a t) :
    t.pending = s.pending ∨ (a = .deliver ∧ t = s.interruptEntry) ∨ (a = .drop ∧ t = s.dropPending) := by
  cases a with
  | host => rw [h.host_frame]; exact .inl rfl
  | foreground => rw [h.foreground_frame]; exact .inl rfl
  | background => rw [h.background_frame]; exact .inl rfl
  | counter => cases h; exact .inl rfl
  | deliver => cases h; exact .inr (.inl ⟨rfl, rfl⟩)
  | drop => cases h; exact .inr (.inr ⟨rfl, rfl⟩)

/-- An update that leaves the timer alone makes no edge. -/
theorem State.latchEdge_still (h : t.mtime = s.mtime) (h' : t.mtimecmp = s.mtimecmp) : s.latchEdge t = t :=
  Host.Outcome.next.inj (latched_still h h')

/-- A delivery's entry, up to the turn and the draws. -/
def State.EntryTaken (s t : State) : Prop :=
  s.deliveryEnabled = true ∧ t = { s with
    pending := false, irqSavedGie := s.gie, gie := false, late := if s.attached then s.late else false
    bgPhase := .t1, schedule := t.schedule, draws := t.draws }

/-- A drop while detached, up to the turn and the draws. -/
def State.Dropped (s t : State) : Prop :=
  s.fault = none ∧ s.attached = false ∧ t = { s with pending := false, schedule := t.schedule, draws := t.draws }

/-- The latch sets PENDING at an edge, and nothing else sets it (R113). -/
theorem AgentUpdate.pending_set (h : AgentUpdate s a t) :
    (s.matchNow = false → t.matchNow = true → (s.latchEdge t).pending = true) ∧
    ((s.latchEdge t).pending = true → s.pending = true ∨ (s.matchNow = false ∧ t.matchNow = true)) := by
  have hkept : t.pending = true → s.pending = true := by
    intro hp
    rcases h.pending_cases with hsame | ⟨-, rfl⟩ | ⟨-, rfl⟩
    · exact hsame.symm.trans hp
    · cases hp
    · cases hp
  refine ⟨fun hb ha => by simp [risingEdge, hb, ha], fun hp => ?_⟩
  simp only [State.latchEdge_pending, risingEdge, Bool.or_eq_true, Bool.and_eq_true, Bool.not_eq_true'] at hp
  exact hp.imp_left hkept

/-- PENDING is cleared by an interrupt entry (R114) and by a drop (R115), and the latch adds nothing to them. -/
theorem AgentUpdate.pending_cleared (he : s.enabled a = true) (h : AgentUpdate s a t) (hs : s.pending = true)
    (ht : (s.latchEdge t).pending = false) : s.EntryTaken (s.latchEdge t) ∨ s.Dropped (s.latchEdge t) := by
  rcases h.pending_cases with hsame | ⟨rfl, rfl⟩ | ⟨rfl, rfl⟩
  · simp [hsame, hs] at ht
  · have hstill : s.latchEdge s.interruptEntry = s.interruptEntry := State.latchEdge_still rfl rfl
    rw [hstill]
    exact .inl ⟨he, s.interruptEntry_eq⟩
  · have hstill : s.latchEdge s.dropPending = s.dropPending := State.latchEdge_still rfl rfl
    rw [hstill]
    obtain ⟨hf, hd, -⟩ := State.enabled_drop_iff.1 he
    exact .inr ⟨hf, hd, rfl⟩

/-- Settles O36: the latch of R113 sets PENDING; an entry, which needs GIE, or a drop clears it. -/
theorem pendingOnRisingEdge : Obligations.PendingOnRisingEdge := by
  intro s t h
  have hstep : (s.matchNow = false → t.matchNow = true → t.pending = true) ∧
      (t.pending = true → s.pending = true ∨ (s.matchNow = false ∧ t.matchNow = true)) ∧
      (s.pending = true → t.pending = false → s.EntryTaken t ∨ s.Dropped t) := by
    apply step_property h
    · exact fun _ _ _ hkept => hkept
    · exact fun sch n => ⟨fun hb ha => absurd (hb.symm.trans ha) Bool.false_ne_true, .inl,
        fun hb ha => absurd (ha.symm.trans hb) Bool.false_ne_true⟩
    · intro u a v _ _ he hv
      obtain ⟨hset, honly⟩ := hv.pending_set
      exact ⟨hset, honly, hv.pending_cleared he⟩
  obtain ⟨hset, honly, hcleared⟩ := hstep
  refine ⟨hset, honly, hcleared, fun hp hg => ?_⟩
  cases ht : t.pending with
  | true => exact .inl rfl
  | false =>
    rcases hcleared hp ht with ⟨hd, -⟩ | hdropped
    · obtain ⟨-, -, hgie, -, -, -⟩ := State.enabled_deliver_iff.1 hd
      exact absurd (hg.symm.trans hgie) Bool.false_ne_true
    · exact .inr hdropped

/-! ## The stale edge -/

/-- Settles O59: START keeps PENDING and GIE, and its attach step makes the delivery enabled. -/
theorem staleEdgeDeliveredAfterStart : Obligations.StaleEdgeDeliveredAfterStart := by
  intro s q rest hl hadm hf hd hp hn hoff hpend hgie hq hs
  have hrun := startRun s q (.deliver :: rest) hl hadm hf hd hp hn hoff hq hs
  rw [hpend, Bool.true_or] at hrun
  refine ⟨_, _, hrun, rfl, ?enabled, rfl, step_deliver hl ?enabled rfl, rfl, rfl, rfl, rfl⟩
  exact State.enabled_deliver_iff.2 ⟨hf, rfl, hgie, .inl rfl, hn, hoff⟩

end Sys2Proof.Machine
end

section
/-! PROOFS. While TICK runs (R94, R118), and in a faulted state (R109): which agents are enabled, and what they leave
unchanged. -/

namespace Sys2Proof.Machine

variable {s t : State} {a : Agent}

/-! ## While TICK runs -/

/-- While TICK runs the foreground and the host stand still, and no delivery is enabled. -/
theorem State.enabled_in_tick (hb : s.bgPhase ≠ .none) (he : s.enabled a = true) :
    a = .background ∨ a = .counter ∨ a = .drop := by
  cases a with
  | host => exact absurd (State.enabled_host_iff.1 he).2.2 hb
  | foreground => exact absurd (State.enabled_foreground_iff.1 he).2.2 hb
  | deliver =>
    obtain ⟨-, -, -, -, hn, -⟩ := State.enabled_deliver_iff.1 he
    exact absurd hn hb
  | background => exact .inl rfl
  | counter => exact .inr (.inl rfl)
  | drop => exact .inr (.inr rfl)

theorem State.deliveryEnabled_in_tick (hb : s.bgPhase ≠ .none) : s.deliveryEnabled = false := by
  refine Bool.eq_false_iff.2 fun hd => ?_
  obtain ⟨-, -, -, -, hn, -⟩ := State.enabled_deliver_iff.1 hd
  exact hb hn

/-- A scheduler run that TICK called returns to TICK (R108). -/
theorem AgentUpdate.fgPhase_in_tick (hc : s.CallInv) (hb : s.bgPhase ≠ .none) (he : s.enabled a = true)
    (h : AgentUpdate s a t) : t.fgPhase = s.fgPhase := by
  rcases State.enabled_in_tick hb he with rfl | rfl | rfl
  · cases h with
    | armBg _ _ _ hu =>
      cases hu with
      | s8fg hp hf => exact absurd (hc.start (by simp [hp]) hf).1 hb
      | _ => rfl
    | _ => rfl
  · cases h; rfl
  · cases h; rfl

/-- TX alone ends a TICK (R117). -/
theorem AgentUpdate.tick_ended (hb : s.bgPhase ≠ .none) (he : s.enabled a = true) (h : AgentUpdate s a t)
    (hn : t.bgPhase = .none) : s.bgPhase = .tx ∧ t = s.interruptReturn := by
  rcases State.enabled_in_tick hb he with rfl | rfl | rfl
  · cases h with
    | tx hp => exact ⟨hp, rfl⟩
    | armBg _ _ _ hu =>
      cases hu with
      | s8bg => cases hn
      | _ => exact absurd hn hb
    | tickFault | tArm => exact absurd hn hb
    | _ => cases hn
  · cases h; exact absurd hn hb
  · cases h; exact absurd hn hb

/-- Settles O39: the invariant masks GIE while TICK runs, and the agents enabled then write no foreground register. -/
theorem noNesting : Obligations.NoNesting := by
  intro s t hi h
  revert hi
  apply step_property h
  · exact fun _ _ _ hkept => hkept
  · rintro sch n ⟨⟨hmask, -, -⟩, -⟩ hb
    obtain ⟨hgie, -⟩ := hmask hb
    exact ⟨hgie, State.deliveryEnabled_in_tick hb, fun _ => hgie, fun hn => absurd hn hb, rfl, rfl, rfl, rfl, rfl,
      fun hc => absurd rfl hc⟩
  · intro u a v _ _ he hv hi hb
    have hi' : v.Inv := hv.inv hi he
    obtain ⟨⟨hmask, -, -⟩, hcall, -⟩ := hi
    obtain ⟨hgie, hsaved⟩ := hmask hb
    obtain ⟨⟨hmask', -, -⟩, -⟩ := hi'
    have hend : v.bgPhase = .none → u.bgPhase = .tx ∧ v.gie = true := by
      intro hn
      obtain ⟨hp, rfl⟩ := hv.tick_ended hb he hn
      exact ⟨hp, hsaved⟩
    have hindex : v.index ≠ u.index → u.bgPhase = .t3 ∧ v.index = u.index + 1 :=
      fun hc => (hv.index_changed he hc).resolve_left fun ⟨hn, _⟩ => hb hn
    have hfg : a ≠ .foreground := by
      rintro rfl
      exact hb (State.enabled_foreground_iff.1 he).2.2
    obtain ⟨hvalue, hdp, hticks, hattached⟩ := hv.display_kept hfg
    exact ⟨hgie, State.deliveryEnabled_in_tick hb, fun hb' => (hmask' hb').1, hend,
      (hv.fgPhase_in_tick hcall hb he :), hvalue, hdp, hticks, hattached, hindex⟩

/-! ## In a faulted state -/

/-- Settles O50: the counter's latched step is the only one a faulted state takes. -/
theorem faultedIsQuiescent : Obligations.FaultedIsQuiescent := by
  intro s t hf h
  revert hf
  apply step_property h
  · exact fun _ _ _ hkept => hkept
  · exact fun _ _ _ => ⟨rfl, .inl rfl, by simp⟩
  · intro u a v _ _ he hv hf
    obtain ⟨f, hf⟩ := Option.ne_none_iff_exists'.1 hf
    obtain rfl := State.enabled_of_fault hf he
    cases hv
    exact ⟨rfl, .inr rfl, rfl⟩

end Sys2Proof.Machine
end

section
/-! PROOFS. A step in a legal configuration always answers a next state (R128, R130), and the host's step runs the
instruction of its command (R64). -/

namespace Sys2Proof.Machine

variable {s : State} {a : Agent}

/-! ## Every step of R128 answers -/

theorem readThen_answers (s : State) (b : BusStep) (addr : Nat) (k : Word → State) :
    ∃ t, readThen s b addr k = .next t := by
  unfold readThen
  split <;> exact ⟨_, rfl⟩

theorem writeThen_answers (s : State) (b : BusStep) (addr : Nat) (v : BusData) (k : State → State) :
    ∃ t, writeThen s b addr v k = .next t := by
  unfold writeThen
  split <;> exact ⟨_, rfl⟩

/-- A command's issue answers, performed or with its fault (R74, R110). -/
theorem exec_issue_answers {i : Instr} (hp : s.fgPhase = .idle) (hw : i.wellFormed .host = true) :
    ∃ t, exec i s = .next t := by
  cases i with
  | reset =>
    simp only [exec, execReset, hp]
    split <;> exact ⟨_, rfl⟩
  | setval => exact ⟨_, exec_setval_idle hp⟩
  | start =>
    simp only [exec, execStart, hp]
    split <;> exact ⟨_, rfl⟩
  | stop =>
    simp only [exec, execStop, hp]
    split
    · exact ⟨_, rfl⟩
    · split <;> exact ⟨_, rfl⟩
  | tick | arm => simp [Instr.wellFormed, Instr.blockOnly] at hw

theorem exec_tick_answers (hoff : s.bgPhase = .tArm → s.sPhase = .off) : ∃ t, exec .tick s = .next t := by
  rw [exec, execTick]
  cases hp : s.bgPhase with
  | none | t3 | tx => exact ⟨_, rfl⟩
  | t1 | t2 => exact writeThen_answers ..
  | tArm => exact ⟨_, callScheduler_off (hoff hp)⟩

theorem exec_arm_answers (count : Word) (hp : s.sPhase ≠ .off) : ∃ t, exec (.arm count) s = .next t := by
  rw [exec, execArm]
  cases hs : s.sPhase with
  | off => exact absurd hs hp
  | s1 | s4 | s8 => exact ⟨_, rfl⟩
  | s2 | s3 => exact readThen_answers ..
  | s5 | s6 | s7 => exact writeThen_answers ..

theorem hostIssue_answers (hp : s.fgPhase = .idle) : ∃ t, hostIssue s = .next t := by
  have hp' : (takeCommand s).2.fgPhase = .idle := by rw [takeCommand_frame]; exact hp
  simp only [hostIssue]
  split
  case h_1 i hi => exact exec_issue_answers hp' (HostInput.instr_wellFormed hi)
  case h_2 => exact ⟨_, rfl⟩

/-- Each phase of R38 names an instruction that has a step there. -/
theorem foreground_answers (s : State) : ∃ t, execNext s.foregroundInstr s = .next t := by
  rw [State.foregroundInstr]
  cases hp : s.fgPhase with
  | idle => exact ⟨_, rfl⟩
  | rs1 => exact ⟨_, exec_reset_rs1 hp⟩
  | rs2 => exact ⟨_, exec_reset_rs2 hp⟩
  | rs3 => exact ⟨_, exec_reset_rs3 hp⟩
  | rs4 => exact ⟨_, exec_reset_rs4 hp⟩
  | v1 => exact ⟨_, exec_setval_v1 hp⟩
  | v2 => exact ⟨_, exec_setval_v2 hp⟩
  | aAtt => exact ⟨_, exec_start_aAtt hp⟩
  | sp1 => exact ⟨_, exec_stop_sp1 hp⟩
  | aArm =>
    cases hs : s.sPhase with
    | off => exact ⟨_, exec_start_aArm hp hs⟩
    | _ => exact exec_arm_answers _ (by simp [hs])

theorem background_answers (s : State) : ∃ t, execNext s.backgroundInstr s = .next t := by
  rw [State.backgroundInstr]
  cases hp : s.bgPhase with
  | none => exact ⟨_, rfl⟩
  | tArm =>
    cases hs : s.sPhase with
    | off => exact exec_tick_answers fun _ => hs
    | _ => exact exec_arm_answers _ (by simp [hs])
  | _ => exact exec_tick_answers (by simp [hp])

theorem agentStep_answers (he : s.enabled a = true) : ∃ t, agentStep a s = .next t := by
  cases a with
  | host => exact hostIssue_answers (State.enabled_host_iff.1 he).2.1
  | foreground => exact foreground_answers s
  | background => exact background_answers s
  | deliver =>
    obtain ⟨-, -, -, -, hn, -⟩ := State.enabled_deliver_iff.1 he
    exact ⟨_, exec_tick_none hn⟩
  | counter | drop => exact ⟨_, rfl⟩

theorem runAgent_answers (a : Agent) (s : State) : ∃ t, runAgent a s = .next t := by
  unfold runAgent
  split
  case isTrue he =>
    obtain ⟨t, ht⟩ := agentStep_answers he
    exact ⟨_, congrArg (latched s) ht⟩
  case isFalse => exact ⟨_, rfl⟩

/-- Settles O45: the agent that moves answers, or is passed over. -/
theorem stepAnswersNext : Obligations.StepAnswersNext := by
  intro s hl
  have hstep : step s = runAgent (takeAgent s).1 (takeAgent s).2 := if_pos hl
  rw [hstep]
  exact runAgent_answers _ _

/-! ## The host's step -/

theorem hostIssue_runs {x : HostInput} {q : List HostInput} {i : Instr} (hq : s.hostQueue = x :: q)
    (hx : x.instr = .ok i) : hostIssue s = exec i { s with hostQueue := q } := by
  simp [hostIssue, takeCommand, hq, hx]

/-- Settles O46: a word and the line that assembles to it have the decoder's instruction, which the issue runs. -/
theorem stepRunsHostWord : Obligations.StepRunsHostWord := by
  intro s x w q rest i hl hf hp hn hq hs hinput hd
  have hx : x.instr = .ok i := by
    rcases hinput with rfl | ⟨l, rfl, ha⟩
    · exact (HostInput.instr_word w).trans hd
    · exact (HostInput.instr_line ha).trans hd
  have hissue : agentStep .host { s with schedule := rest } = exec i { s with hostQueue := q, schedule := rest } :=
    hostIssue_runs hq hx
  have he : State.enabled { s with schedule := rest } .host = true := State.enabled_host_iff.2 ⟨hf, hp, hn⟩
  rw [step_scheduled hl hs, runAgent, if_pos he, hissue]
  cases exec i { s with hostQueue := q, schedule := rest } <;> rfl

end Sys2Proof.Machine
end

section
/-! PROOFS. The edges of MATCH a scheduler run makes with the deadline passed or wrapped (R113, R141, R148), and TICKs
back to back with a zero interval (R95, R142). -/

namespace Sys2Proof.Machine

variable {s : State} {a : Agent} {rest : List Agent} {mtime old fin v : DWord}

/-! ## MATCH by the halves of the comparator -/

theorem matchOf_iff : matchOf mtime v = true ↔ v.toNat ≤ mtime.toNat := decide_eq_true_iff

theorem toNat_halves (v : DWord) : v.toNat = (hi32 v).toNat * 2 ^ 32 + (lo32 v).toNat := by
  rw [← toNat_join, join_halves]

/-- A comparator whose high half MTIME's has passed is reached, whatever its low half. -/
theorem matchOf_of_hi32_lt (h : (hi32 v).toNat < (hi32 mtime).toNat) : matchOf mtime v = true := by
  have hlow := (lo32 v).isLt
  rw [matchOf_iff, toNat_halves v, toNat_halves mtime]
  omega

/-- With no carry at bit 32 next, the sentinel holds MATCH off while the high half is MTIME's own (R103). -/
theorem matchOf_join_sentinel_self (h : lo32 mtime ≠ sentinel) :
    matchOf mtime (join (hi32 mtime) sentinel) = false := by
  have hmax : sentinel.toNat = 2 ^ 32 - 1 := rfl
  have hlow := (lo32 mtime).isLt
  have hne : (lo32 mtime).toNat ≠ sentinel.toNat := fun he => h (BitVec.eq_of_toNat_eq he)
  rw [Bool.eq_false_iff, ne_eq, matchOf_iff, toNat_join, toNat_halves mtime]
  omega

/-! ## The edges of the three writes -/

/-- S7 makes the edge where MATCH is 0 after S6 and the deadline is reached (R105, R141). -/
theorem armEdge_of_s7 (hs6 : matchOf mtime (join (hi32 fin) sentinel) = false) (hfin : matchOf mtime fin = true) :
    armEdge mtime old fin = true := by
  simp [armEdge_eq, writeEdge, withHi_withLo, hs6, hfin]

/-- S6 makes the edge where the sentinel drops MATCH and the deadline is wrapped below MTIME's high half (R104, R148). -/
theorem armEdge_of_s6 (hs5 : matchOf mtime (join (hi32 old) sentinel) = false)
    (hfin : (hi32 fin).toNat < (hi32 mtime).toNat) : armEdge mtime old fin = true := by
  have hs5 : matchOf mtime (withLo old sentinel) = false := hs5
  have hs6 : matchOf mtime (withHi (withLo old sentinel) (hi32 fin)) = true :=
    matchOf_of_hi32_lt (by rwa [hi32_withHi])
  simp [armEdge_eq, writeEdge, hs5, hs6]

/-- MTIME's high half has passed both deadlines': MATCH stays 1 through the three writes (R141). -/
theorem armEdge_of_hi32_lt (hold : (hi32 old).toNat < (hi32 mtime).toNat)
    (hfin : (hi32 fin).toNat < (hi32 mtime).toNat) : armEdge mtime old fin = false := by
  have hs5 : matchOf mtime (withLo old sentinel) = true := matchOf_of_hi32_lt (by rwa [hi32_withLo])
  have hs6 : matchOf mtime (withHi (withLo old sentinel) (hi32 fin)) = true :=
    matchOf_of_hi32_lt (by rwa [hi32_withHi])
  simp [armEdge_eq, writeEdge, matchOf_of_hi32_lt hold, hs5, hs6]

/-- S7 alone, MATCH 0 before it and the deadline reached: its write makes the edge (R105, R113). -/
theorem step_arm_s7_edge (h : s.Runs a) (hlo : s.cfg.admits ⟨s.cfg.addrMtimecmpLo, 4, .write⟩ = true)
    (hp : s.sPhase = .s7) (hs : s.schedule = a :: rest) (hcmp : s.mtimecmp = join (hi32 s.sFin) sentinel)
    (hm : matchOf s.mtime s.mtimecmp = false) (hfin : matchOf s.mtime s.sFin = true) :
    step s = .next { s with mtimecmp := s.sFin, pending := true, sPhase := .s8, schedule := rest } := by
  have hnew : withLo s.mtimecmp (lo32 s.sFin) = s.sFin := by rw [hcmp, withLo, hi32_join, join_halves]
  refine step_arm_latched h (by simp [hp]) hs (exec_arm_s7 hp h.1 hlo) ?_
  simp [hnew, hm, State.matchNow, hfin]

/-- Settles O60: the run of S5 to S7 with the edge in each of the three cases, and S7 alone. -/
theorem deadlinePassedDuringRun : Obligations.DeadlinePassedDuringRun := by
  intro s a rest hl hlo hf hrun
  refine ⟨fun hp hhi hs => ?_, fun hp hs hcmp hm hfin =>
    step_arm_s7_edge ⟨hl, hf, hrun⟩ hlo hp hs hcmp hm (matchOf_iff.2 hfin)⟩
  refine ⟨_, run_arm_writes ⟨hl, hf, hrun⟩ hlo hhi hp hs, rfl, fun hs6 hfin => ?_, fun _ hold hfin => ⟨?_, ?_⟩,
    fun hs5 hfin => ?_⟩
  · rw [armEdge_of_s7 hs6 (matchOf_iff.2 hfin), Bool.or_true]
  · rw [armEdge_of_hi32_lt hold hfin, Bool.or_false]
  · exact matchOf_of_hi32_lt hfin
  · rw [armEdge_of_s6 hs5 hfin, Bool.or_true]

/-! ## A zero interval -/

/-- The state a whole TICK leaves where the interval is zero: the comparator at MTIME, the edge of S7 in PENDING. -/
def State.afterZeroTick (s : State) (rest : List Agent) : State := { s with
  gpioDigit := oneHot s.index, gpioSeg := segByte s.value s.dpMask s.index, index := nextIndex s.index
  late := s.attached && s.late, irqSavedGie := s.gie, mtimecmp := s.mtime, pending := true
  sCount := s.refreshTicks, sSaved := false, sLo := lo32 s.mtime, sHi := hi32 s.mtime, sFin := s.mtime
  sCaller := .bg, schedule := rest }

/-- A TICK with a zero interval sets PENDING again: its deadline is the MTIME that S7 meets (R95, R142). -/
theorem run_tick_zero_interval (hl : s.cfg.legal = true) (hadm : s.cfg.admitsSix = true)
    (hd : s.deliveryEnabled = true) (hr : s.refreshTicks = 0) (hc : lo32 s.mtime ≠ sentinel)
    (hs : s.schedule = tickAgents ++ rest) : Host.Core.run core 14 s = .next (s.afterZeroTick rest) := by
  have hfin : s.nextDeadline = s.mtime := by simp [State.nextDeadline, hr]
  have hedge : armEdge s.mtime s.mtimecmp s.mtime = true :=
    armEdge_of_s7 (matchOf_join_sentinel_self hc) (matchOf_iff.2 le_rfl)
  rw [run_tick hl hadm hd hs, hfin, hedge, State.afterZeroTick]

/-- A TICK that sets PENDING again leaves the next delivery enabled (R114). -/
theorem State.deliveryEnabled_afterZeroTick (hd : s.deliveryEnabled = true) (ha : s.attached = true) :
    (s.afterZeroTick rest).deliveryEnabled = true := by
  obtain ⟨hf, -, hgie, -, hn, hoff⟩ := State.enabled_deliver_iff.1 hd
  exact State.enabled_deliver_iff.2 ⟨hf, rfl, hgie, .inl ha, hn, hoff⟩

/-- Settles O58, by induction on the number of TICKs: each leaves the premises to the next. -/
theorem zeroIntervalBackToBack : Obligations.ZeroIntervalBackToBack := by
  intro n
  induction n with
  | zero =>
    intro s rest _ _ hd _ _ _ hs
    exact ⟨s, run_zero s, hd, (BitVec.add_zero s.index).symm, rfl, rfl, rfl, rfl, hs, fun h => absurd rfl h⟩
  | succ n ih =>
    intro s rest hl hadm hd ha hr hc hs
    have htick := run_tick_zero_interval (rest := (List.replicate n tickAgents).flatten ++ rest) hl hadm hd hr hc
      (by rw [hs, List.replicate_succ, List.flatten_cons, List.append_assoc])
    obtain ⟨t, ht, hd', hindex, hvalue, hmask, hmtime, hfg, hsched, hlast⟩ :=
      ih (s.afterZeroTick _) rest hl hadm (State.deliveryEnabled_afterZeroTick hd ha) ha hr hc rfl
    have hindex' : t.index = s.index + BitVec.ofNat 2 (n + 1) := by
      rw [hindex, Nat.add_comm, BitVec.ofNat_add, ← BitVec.add_assoc]; rfl
    refine ⟨t, ?_, hd', hindex', hvalue, hmask, hmtime, hfg, hsched, fun _ => ?_⟩
    · rw [Nat.mul_succ, Nat.add_comm, run_add _ htick, ht]
    · cases n with
      | zero =>
        obtain rfl : s.afterZeroTick _ = t := Host.Outcome.next.inj ht
        have hshown : nextIndex s.index - 1 = s.index := nextIndex_sub_one s.index
        exact ⟨rfl, congrArg oneHot hshown.symm, congrArg (segByte s.value s.dpMask) hshown.symm⟩
      | succ n => exact hlast n.succ_ne_zero

end Sys2Proof.Machine
end
